-- ==== Sys2Proof/Word.lean ====
section
/-! DEFINITION. The word types of the register interface (spec R11): `u8`, `u16` and `u32`. -/

namespace Sys2Proof

/-- `u8` (R11). -/
abbrev Byte := BitVec 8

/-- `u16` (R11). -/
abbrev Half := BitVec 16

/-- `u32` and, read through `BitVec.toInt`, `s32` (R11): a command word or a register word. -/
abbrev Word := BitVec 32

end Sys2Proof
end

