-- ==== Sys2Proof/Syntax.lean ====
section
/-! DEFINITION. The instructions: one constructor per row of spec/opcode_table.json (R76). Operands have the exact width of
their field (R75), so every term is a legal command. -/

namespace Sys2Proof

/-- A legal command (R76). `b` is the byte operand of format B, `h` the halfword operand of format H (R74). -/
inductive Instr where
  /-- `CRC_INIT` (R92) -/
  | crcInit
  /-- `CRC_BYTE b` (R93) -/
  | crcByte (b : Byte)
  /-- `CRC_VERIFY h` (R94) -/
  | crcVerify (h : Half)
  /-- `FRM_START` (R99) -/
  | frmStart
  /-- `FRM_BYTE b` (R103) -/
  | frmByte (b : Byte)
  /-- `FENC` (R102) -/
  | fenc
  /-- `FRM_FIXED` (R104) -/
  | frmFixed
  /-- `FRM_CRC` (R105) -/
  | frmCrc
  /-- `FRM_RAW b` (R106) -/
  | frmRaw (b : Byte)
  /-- `FRM_DEC2 b` (R109) -/
  | frmDec2 (b : Byte)
  /-- `FRM_DEC b` (R110) -/
  | frmDec (b : Byte)
  /-- `SLP_INIT` (R124) -/
  | slpInit
  /-- `SLP_SLEEP h` (R126) -/
  | slpSleep (h : Half)
  deriving DecidableEq, Repr

end Sys2Proof
end

