-- ==== Sys2Proof/WellFormed.lean ====
section
/-! DEFINITION. Command lines as a host programmer writes them (R81), and the check that an assembler makes before it
encodes one: an operand where the format has one, none where it has none, and inside its range. A term of `Instr` needs no
check: its operands have the width of their field. -/

namespace Sys2Proof

/-- The thirteen mnemonics of the opcode map (R76). -/
inductive Mnemonic where
  | crcInit | crcByte | crcVerify
  | frmStart | frmByte | fenc | frmFixed | frmCrc | frmRaw | frmDec2 | frmDec
  | slpInit | slpSleep
  deriving DecidableEq, Repr

/-- The three formats of a command word (R74). -/
inductive Format where
  /-- no operand -/
  | n
  /-- byte operand -/
  | b
  /-- halfword operand -/
  | h
  deriving DecidableEq, Repr

/-- The format of each mnemonic (R76). -/
def Mnemonic.format : Mnemonic → Format
  | .crcInit | .frmStart | .fenc | .frmFixed | .frmCrc | .slpInit => .n
  | .crcByte | .frmByte | .frmRaw | .frmDec2 | .frmDec => .b
  | .crcVerify | .slpSleep => .h

/-- A command line as written: a mnemonic and the operand that stands beside it, if any (R81). -/
structure CmdLine where
  op : Mnemonic
  operand : Option Nat
  deriving DecidableEq, Repr

/-- R81: format N has no operand, format B one in 0..255, format H one in 0..65535. An operand outside its range is refused,
never truncated. -/
def CmdLine.wellFormed (l : CmdLine) : Bool :=
  match l.op.format, l.operand with
  | .n, none => true
  | .b, some b => b < 256
  | .h, some h => h < 65536
  | _, _ => false

end Sys2Proof
end

