-- ==== Sys2Proof/Decode.lean ====
section
/-! DEFINITION. The command word: its fields (R73), the decoder (R77, R78), which is total and rejects by name, the encoder
(R82), and the assembler's step from a command line to an instruction (R81). -/

namespace Sys2Proof

/-! ### Fields (R73, R75) -/

/-- `opc = word[7:0]` -/
def opcField (w : Word) : Byte := w.extractLsb' 0 8

/-- `rsv = word[15:8]` -/
def rsvField (w : Word) : Byte := w.extractLsb' 8 8

/-- `imm = word[31:16]`, which is `h` in format H. -/
def immField (w : Word) : Half := w.extractLsb' 16 16

/-- `b = word[23:16]` (format B). -/
def byteField (w : Word) : Byte := w.extractLsb' 16 8

/-- `word[31:24]`, which must be 0 in format B. -/
def immHighField (w : Word) : Byte := w.extractLsb' 24 8

/-! ### Decoding -/

/-- Why a word is illegal (R78). Each case is `ERR_ILLEGAL` when the word is written to `CMD`. -/
inductive DecodeError where
  /-- `opc` is not in the table of R76. -/
  | unassignedOpcode (opc : Byte)
  /-- A listed `opc` with `rsv ≠ 0`. -/
  | reservedNonzero (rsv : Byte)
  /-- Format N with `imm ≠ 0`. -/
  | immNonzero (imm : Half)
  /-- Format B with `word[31:24] ≠ 0`. -/
  | immHighNonzero (hi : Byte)
  deriving DecidableEq, Repr

/-- Format N (R74): `rsv` and `imm` must be 0. -/
def decodeN (w : Word) (i : Instr) : Except DecodeError Instr :=
  if rsvField w ≠ 0 then .error (.reservedNonzero (rsvField w))
  else if immField w ≠ 0 then .error (.immNonzero (immField w))
  else .ok i

/-- Format B (R74): `rsv` and `word[31:24]` must be 0. -/
def decodeB (w : Word) (i : Byte → Instr) : Except DecodeError Instr :=
  if rsvField w ≠ 0 then .error (.reservedNonzero (rsvField w))
  else if immHighField w ≠ 0 then .error (.immHighNonzero (immHighField w))
  else .ok (i (byteField w))

/-- Format H (R74): `rsv` must be 0. -/
def decodeH (w : Word) (i : Half → Instr) : Except DecodeError Instr :=
  if rsvField w ≠ 0 then .error (.reservedNonzero (rsvField w))
  else .ok (i (immField w))

/-- The decoder (R76 to R78): total on every 32-bit word. -/
def decode (w : Word) : Except DecodeError Instr :=
  match (opcField w).toNat with
  | 0x01 => decodeN w .crcInit
  | 0x02 => decodeB w .crcByte
  | 0x03 => decodeH w .crcVerify
  | 0x10 => decodeN w .frmStart
  | 0x11 => decodeB w .frmByte
  | 0x12 => decodeN w .fenc
  | 0x13 => decodeN w .frmFixed
  | 0x14 => decodeN w .frmCrc
  | 0x15 => decodeB w .frmRaw
  | 0x16 => decodeB w .frmDec2
  | 0x17 => decodeB w .frmDec
  | 0x20 => decodeN w .slpInit
  | 0x21 => decodeH w .slpSleep
  | _ => .error (.unassignedOpcode (opcField w))

/-- The instruction the decoder reads from a table row's bits `w` (bit 0 the least significant bit of the word). A command is
always one 32-bit word (R73); bits above `nbits` are 0. -/
def decodeTableWord (nbits w : Nat) : Option Instr :=
  match decode (BitVec.ofNat 32 (w % 2 ^ nbits)) with
  | .ok i => some i
  | .error _ => none

/-! ### The encoder (R82) -/

/-- `N: word = zext_32(opc)` -/
def encodeN (opc : Byte) : Word := opc.setWidth 32

/-- `B: word = {8'h00, b[7:0], 8'h00, opc[7:0]}` -/
def encodeB (opc b : Byte) : Word := (0#8 ++ b) ++ (0#8 ++ opc)

/-- `H: word = {h[15:0], 8'h00, opc[7:0]}` -/
def encodeH (opc : Byte) (h : Half) : Word := h ++ (0#8 ++ opc)

/-- The word of an instruction, from the opcode map of R76 and the layout of R82. -/
def encode : Instr → Word
  | .crcInit => encodeN 0x01
  | .crcByte b => encodeB 0x02 b
  | .crcVerify h => encodeH 0x03 h
  | .frmStart => encodeN 0x10
  | .frmByte b => encodeB 0x11 b
  | .fenc => encodeN 0x12
  | .frmFixed => encodeN 0x13
  | .frmCrc => encodeN 0x14
  | .frmRaw b => encodeB 0x15 b
  | .frmDec2 b => encodeB 0x16 b
  | .frmDec b => encodeB 0x17 b
  | .slpInit => encodeN 0x20
  | .slpSleep h => encodeH 0x21 h

/-! ### The table form of the decoder (R77) -/

/-- The `(mask, match)` pair of each mnemonic, as R77 lists them. -/
def maskMatch : Mnemonic → Word × Word
  | .crcInit => (0xFFFFFFFF#32, 0x00000001#32)
  | .crcByte => (0xFF00FFFF#32, 0x00000002#32)
  | .crcVerify => (0x0000FFFF#32, 0x00000003#32)
  | .frmStart => (0xFFFFFFFF#32, 0x00000010#32)
  | .frmByte => (0xFF00FFFF#32, 0x00000011#32)
  | .fenc => (0xFFFFFFFF#32, 0x00000012#32)
  | .frmFixed => (0xFFFFFFFF#32, 0x00000013#32)
  | .frmCrc => (0xFFFFFFFF#32, 0x00000014#32)
  | .frmRaw => (0xFF00FFFF#32, 0x00000015#32)
  | .frmDec2 => (0xFF00FFFF#32, 0x00000016#32)
  | .frmDec => (0xFF00FFFF#32, 0x00000017#32)
  | .slpInit => (0xFFFFFFFF#32, 0x00000020#32)
  | .slpSleep => (0x0000FFFF#32, 0x00000021#32)

/-- `word AND mask = match` for the row of `m` (R77). -/
def rowMatches (w : Word) (m : Mnemonic) : Bool :=
  w &&& (maskMatch m).1 == (maskMatch m).2

/-- The mnemonic of an instruction. -/
def Instr.mnemonic : Instr → Mnemonic
  | .crcInit => .crcInit
  | .crcByte _ => .crcByte
  | .crcVerify _ => .crcVerify
  | .frmStart => .frmStart
  | .frmByte _ => .frmByte
  | .fenc => .fenc
  | .frmFixed => .frmFixed
  | .frmCrc => .frmCrc
  | .frmRaw _ => .frmRaw
  | .frmDec2 _ => .frmDec2
  | .frmDec _ => .frmDec
  | .slpInit => .slpInit
  | .slpSleep _ => .slpSleep

/-! ### Command lines (R81, R84) -/

/-- The instruction with a mnemonic and an operand field; format N ignores `v`, format B takes its low byte. It is applied
only to well-formed lines and to decoded fields. -/
def Mnemonic.instr (m : Mnemonic) (v : Nat) : Instr :=
  match m with
  | .crcInit => .crcInit
  | .crcByte => .crcByte (BitVec.ofNat 8 v)
  | .crcVerify => .crcVerify (BitVec.ofNat 16 v)
  | .frmStart => .frmStart
  | .frmByte => .frmByte (BitVec.ofNat 8 v)
  | .fenc => .fenc
  | .frmFixed => .frmFixed
  | .frmCrc => .frmCrc
  | .frmRaw => .frmRaw (BitVec.ofNat 8 v)
  | .frmDec2 => .frmDec2 (BitVec.ofNat 8 v)
  | .frmDec => .frmDec (BitVec.ofNat 8 v)
  | .slpInit => .slpInit
  | .slpSleep => .slpSleep (BitVec.ofNat 16 v)

/-- The operand that stands beside an instruction's mnemonic. -/
def Instr.operand : Instr → Option Nat
  | .crcByte b | .frmByte b | .frmRaw b | .frmDec2 b | .frmDec b => some b.toNat
  | .crcVerify h | .slpSleep h => some h.toNat
  | .crcInit | .frmStart | .fenc | .frmFixed | .frmCrc | .slpInit => none

/-- The line of an instruction (R84). -/
def Instr.line (i : Instr) : CmdLine := ⟨i.mnemonic, i.operand⟩

/-- The assembler (R81, R82): the word of a well-formed line; an ill-formed line is refused. -/
def assemble (l : CmdLine) : Option Word :=
  if l.wellFormed then some (encode (l.op.instr (l.operand.getD 0))) else none

end Sys2Proof
end

