-- ==== Sys2Proof/Config.lean ====
section
/-! DEFINITION. What the implementation fixes (spec R6, R22, R53) and the free values of the model (notes/assumptions/7.md). -/

namespace Sys2Proof.Config

/-- `CRC_POLY` (R6). -/
def crcPoly : Half := 0x1021#16

/-- `CRC_INIT` (R6): the seed, fixed (R92). -/
def crcInit : Half := 0x0000#16

/-- `FRAME_MAX` (R6): the frame buffer's capacity in bytes. -/
def frameMax : Nat := 256

/-- `FENC_FRAC_BITS` (R6): fraction bits of the signed Q16.16 operand. -/
def fencFracBits : Nat := 16

/-- The size of the register window in bytes (R53). -/
def windowSize : Nat := 512

/-- The window offset of `FRAME[0]` (R22). -/
def frameOffset : Nat := 0x100

/-- `DEVICE_ID_LEN` of the reference layout (R6); program-level only. -/
def deviceIdLen : Nat := 6

/-- `NUM_CHANNELS` of the reference layout (R6); program-level only. -/
def numChannels : Nat := 2

/-- FREE VALUE (R33, R57, I3; notes/assumptions/7.md): the byte that the `n`-th draw of the run gives. It has no body, so no
proof can use a value of it. -/
opaque freeByte : Nat → Byte

end Sys2Proof.Config
end

