-- ==== Sys2Proof/Machine/Operands.lean ====
section
/-! DEFINITION. Operand computations: the Q16.16 reading and its decomposition into a byte pair (R100, R101), the decimal
renderers (R107, R108), and the bytes of the checksum (R105). -/

namespace Sys2Proof.Machine

/-! ### The fixed-point operand (R100, R101)

The names follow the pseudocode of R101: `ip`, `fp` and `fr` are unbounded naturals, `is` and `fs` their signed forms. -/

/-- `m <- |o|`, exact: 0 .. 2^31. -/
def readingMagnitude (o : Word) : Nat := o.toInt.natAbs

/-- `ip <- m >> 16` -/
def readingIp (o : Word) : Nat := readingMagnitude o >>> Config.fencFracBits

/-- `fp <- m AND 0xFFFF` -/
def readingFp (o : Word) : Nat := readingMagnitude o &&& 0xFFFF

/-- `fr <- (fp * 100 + 0x8000) >> 16` -/
def readingFr (o : Word) : Nat := (readingFp o * 100 + 0x8000) >>> Config.fencFracBits

/-- A magnitude under the sign of the operand: `neg ? -n : n`. -/
def withSignOf (o : Word) (n : Nat) : Int := if o.toInt < 0 then -(n : Int) else n

/-- `is`: trunc(v) -/
def signedIntPart (o : Word) : Int := withSignOf o (readingIp o)

/-- `fs`: roundHalfAway((v - trunc(v)) * 100) -/
def signedFracPart (o : Word) : Int := withSignOf o (readingFr o)

/-- `ib <- is mod 256` -/
def intByte (o : Word) : Byte := BitVec.ofInt 8 (signedIntPart o)

/-- `fb <- fs mod 256` -/
def fracByte (o : Word) : Byte := BitVec.ofInt 8 (signedFracPart o)

/-! ### Decimal renderers (R107, R108) -/

/-- The ASCII code of a decimal digit: `'0' + d` (R13). -/
def asciiDigit (d : Nat) : Byte := BitVec.ofNat 8 (0x30 + d)

/-- The zero-padded rendering of a byte: two characters below 100, three from 100 on (R107). -/
def dec2 (b : Byte) : List Byte :=
  let n := b.toNat
  if n < 100 then [asciiDigit (n / 10), asciiDigit (n % 10)]
  else [asciiDigit (n / 100), asciiDigit (n / 10 % 10), asciiDigit (n % 10)]

/-- The plain rendering of a byte, with no leading zeros (R108). -/
def dec (b : Byte) : List Byte :=
  let n := b.toNat
  if n < 10 then [asciiDigit n]
  else if n < 100 then [asciiDigit (n / 10), asciiDigit (n % 10)]
  else [asciiDigit (n / 100), asciiDigit (n / 10 % 10), asciiDigit (n % 10)]

/-! ### Halves and bytes -/

/-- `crc[7:0]` -/
def lowByte (h : Half) : Byte := h.extractLsb' 0 8

/-- `crc[15:8]` -/
def highByte (h : Half) : Byte := h.extractLsb' 8 8

/-- The bytes of a frame read as one word, the first byte in bits [7:0] (R58). -/
def wordOfBytes : List Byte → Word
  | [] => 0
  | b :: bs => (wordOfBytes bs <<< 8) ||| b.setWidth 32

end Sys2Proof.Machine
end

