-- ==== Sys2Proof/Machine/State.lean ====
section
/-! DEFINITION. The state of the machine: the block's complete state (R21), the inputs and the parameter the spec leaves
open, and the model's own fields; the reasons a step can stop; the state after reset (R39). -/

namespace Sys2Proof.Machine

/-- The four states of the sleep unit (R119). -/
inductive Fsm where
  | awake | armed | sleeping | forcedSleep
  deriving DecidableEq, Repr

/-- The recorded error codes (R138). Codes 5 to 15 are reserved and never recorded, so they have no constructor. -/
inductive ErrCode where
  /-- 0, `ERR_NONE` -/
  | none
  /-- 1, `ERR_ILLEGAL` -/
  | illegal
  /-- 2, `ERR_BUSY` -/
  | busy
  /-- 3, `ERR_NOT_INIT` -/
  | notInit
  /-- 4, `ERR_REINIT` -/
  | reinit
  deriving DecidableEq, Repr

/-- Output pulses (R12 `emit`, R35). -/
inductive Signal where
  /-- `wdt_restart`: "resets the watchdog" (R35, R127) -/
  | wdtRestart
  deriving DecidableEq, Repr

/-- One bus access of a host (R12, R54): an address, a width in bytes, and the data of a write in the low bits. -/
inductive Access where
  | read (addr width : Nat)
  | write (addr width : Nat) (data : Word)
  deriving DecidableEq, Repr

/-- One entry of the schedule: which agent moves next (R8, R146). -/
inductive Event where
  /-- The host makes its next access, unless it is held (R145). -/
  | host
  /-- A second master's access, which the host's hold does not stop (R140; notes/assumptions/12.md). -/
  | second (a : Access)
  /-- The watchdog fires (R121). -/
  | tick
  /-- The block's own step (R128). -/
  | block
  /-- The environment drives the `vlow` level (R36). -/
  | vlow (level : Bool)
  /-- The environment drives the `rst_n` level: `false` asserts reset, `true` releases it (R157). -/
  | rstN (level : Bool)
  deriving DecidableEq, Repr

/-- Why a run stops. -/
inductive Fault where
  /-- Raised by a host access of a width or alignment that R55 and R56 do not accept; it carries the faulting address
  (R141, R142). The hardware answers the host with an error and goes on, so stopping is SAFE. -/
  | busError (addr : Nat)
  /-- Raised by the step in `FORCED_SLEEP` when no event is left: the halted outcome (R19, R132). The hardware takes no step
  there either: SAFE. -/
  | halted
  deriving DecidableEq, Repr

/-- Why an instruction has no meaning. -/
inductive Refusal where
  /-- Raised by an arm of `exec` whose instruction has no meaning yet. SAFE. No arm of this model raises it. -/
  | notModelled (mnemonic : String)
  deriving DecidableEq, Repr

/-- The frame buffer as a list of (index, byte) cells. An index is listed when an append has written it; the canonical form
is `Memory.wf` (Machine/Ops.lean). -/
abbrev Memory := List Host.Cell

/-- The state. The first group is the block's complete state, name by name as R21 lists it. -/
structure State where
  /-- `crc`: the running CRC register -/
  crc : Half
  /-- `frame[]`: the frame buffer's contents -/
  frame : Memory
  /-- `frame_written[]`: bit `i` says whether byte `i` was written since reset -/
  frameWritten : BitVec 256
  /-- `frm_len`: the bytes appended since `FRM_START`, and the index of the next append -/
  frmLen : Half
  /-- `opnd`: the signed Q16.16 operand -/
  opnd : Word
  /-- `fenc_int` -/
  fencInt : Byte
  /-- `fenc_frac` -/
  fencFrac : Byte
  /-- `match`: the result of the last `CRC_VERIFY` -/
  matched : Bool
  /-- `frm_ovf` -/
  frmOvf : Bool
  /-- `fenc_rng` -/
  fencRng : Bool
  /-- `cmd_err` -/
  cmdErr : Bool
  /-- `err_code` -/
  errCode : ErrCode
  /-- `cfg_failsafe_en` -/
  cfgFailsafeEn : Bool
  /-- `cfg_txt_mode` -/
  cfgTxtMode : Bool
  /-- `init` -/
  init : Bool
  /-- `fsm` -/
  fsm : Fsm
  /-- `ticks` -/
  ticks : Half
  /-- `cycles` -/
  cycles : Half
  /-- `wdt_ie` -/
  wdtIe : Bool
  /-- `pd_en` -/
  pdEn : Bool
  /-- `adc_en` -/
  adcEn : Bool
  /-- `ain_float` -/
  ainFloat : Bool
  /-- `pd_req` -/
  pdReq : Bool
  /-- `bod_off` -/
  bodOff : Bool
  /-- `irq_dis` -/
  irqDis : Bool
  /-- Parameter `BASE` (R53): no step writes it (notes/assumptions/6.md). -/
  base : Nat
  /-- Input level `vlow` (R36). -/
  vlow : Bool
  /-- Input level `rst_n` (R36): `true` when released. -/
  rstN : Bool
  /-- Model: the host's accesses still to be made, in program order (R63). -/
  hostOps : List Access
  /-- Model: the moves still to come (R146). -/
  sched : List Event
  /-- Model: the number of draws taken (R12). -/
  draws : Nat
  /-- Model: the word the block answered the last bus read with. -/
  rdata : Word
  /-- Model: the pulses emitted so far, newest first (R12). -/
  history : List Signal
  deriving DecidableEq, Repr

/-- The machine right after reset: R39 for the block's state; the other fields as notes/assumptions/1.md, 6.md, 7.md, 8.md,
9.md, 10.md and 13.md say (DESIGN CHOICE). -/
def State.reset : State where
  crc := 0
  frame := []
  frameWritten := 0
  frmLen := 0
  opnd := 0
  fencInt := 0
  fencFrac := 0
  matched := false
  frmOvf := false
  fencRng := false
  cmdErr := false
  errCode := .none
  cfgFailsafeEn := true
  cfgTxtMode := false
  init := false
  fsm := .awake
  ticks := 0
  cycles := 0
  wdtIe := false
  pdEn := false
  adcEn := true
  ainFloat := false
  pdReq := false
  bodOff := false
  irqDis := false
  base := 0
  vlow := false
  rstN := true
  hostOps := []
  sched := []
  draws := 0
  rdata := 0
  history := []

end Sys2Proof.Machine
end

