-- ==== Sys2Proof/Machine/Flags.lean ====
section
/-! DEFINITION. Every flag computation: the range flag of the encoder (R101), the codes of `fsm` and `err_code` (R25, R138),
`BUSY`, the words of `STATUS`, `OUT` and `CFG` as they are read (R25, R32, R31), and the write-one-to-clear rule of `STATUS`
(R26). -/

namespace Sys2Proof.Machine

/-- `rng <- not (0 <= is <= 255 and 0 <= fs <= 255)` (R101) -/
def readingOutOfRange (o : Word) : Bool :=
  !(decide (0 ≤ signedIntPart o ∧ signedIntPart o ≤ 255) && decide (0 ≤ signedFracPart o ∧ signedFracPart o ≤ 255))

/-- The 2-bit code of `fsm` (R25, R40). -/
def Fsm.code : Fsm → BitVec 2
  | .awake => 0
  | .armed => 1
  | .sleeping => 2
  | .forcedSleep => 3

/-- The 4-bit code of an error (R138). -/
def ErrCode.code : ErrCode → BitVec 4
  | .none => 0
  | .illegal => 1
  | .busy => 2
  | .notInit => 3
  | .reinit => 4

/-- `BUSY`: 1 when `fsm ≠ AWAKE` (R25). -/
def State.busy (s : State) : Bool := s.fsm != .awake

/-- The word of a list of fields, the first field in the high bits, zero-extended to 32 bits. -/
def flagWord {n : Nat} (fields : BitVec n) : Word := fields.setWidth 32

/-- `STATUS` as read (R25): `ERR_CODE` [15:12], `FSM` [9:8], `FENC_RNG` [5], `FRM_OVF` [4], `CMD_ERR` [3], `MATCH` [2],
`INIT` [1], `BUSY` [0]; every other bit 0. -/
def statusWord (s : State) : Word :=
  flagWord (s.errCode.code ++ 0#2 ++ s.fsm.code ++ 0#2 ++ BitVec.ofBool s.fencRng ++ BitVec.ofBool s.frmOvf
    ++ BitVec.ofBool s.cmdErr ++ BitVec.ofBool s.matched ++ BitVec.ofBool s.init ++ BitVec.ofBool s.busy)

/-- `OUT` as read (R32): `irq_dis` [6], `bod_off` [5], `pd_req` [4], `ain_float` [3], `adc_en` [2], `pd_en` [1],
`wdt_ie` [0]. -/
def outWord (s : State) : Word :=
  flagWord (BitVec.ofBool s.irqDis ++ BitVec.ofBool s.bodOff ++ BitVec.ofBool s.pdReq ++ BitVec.ofBool s.ainFloat
    ++ BitVec.ofBool s.adcEn ++ BitVec.ofBool s.pdEn ++ BitVec.ofBool s.wdtIe)

/-- `CFG` as read (R31): `TXT_MODE` [1], `FAILSAFE_EN` [0]. -/
def cfgWord (s : State) : Word :=
  flagWord (BitVec.ofBool s.cfgTxtMode ++ BitVec.ofBool s.cfgFailsafeEn)

/-- `FENC_RES` as read (R29): `fenc_frac` [15:8], `fenc_int` [7:0]. -/
def fencResWord (s : State) : Word := flagWord (s.fencFrac ++ s.fencInt)

/-- A write of `w` to `STATUS` (R26): a 1 in bit 3, 4 or 5 clears that flag, and bit 3 the error code with it. -/
def writeStatus (w : Word) (s : State) : State :=
  { s with
    cmdErr := s.cmdErr && !w[3]
    errCode := if w[3] then .none else s.errCode
    frmOvf := s.frmOvf && !w[4]
    fencRng := s.fencRng && !w[5] }

/-- A write of `w` to `CFG` (R31): both bits at once. -/
def writeCfg (w : Word) (s : State) : State :=
  { s with cfgFailsafeEn := w[0], cfgTxtMode := w[1] }

end Sys2Proof.Machine
end

