-- ==== Sys2Proof/Machine/Ops.lean ====
section
/-! DEFINITION. The shared operations: the frame buffer as a memory (R57), the append primitive (R98), the CRC update
(R89), the record of a rejected command (R137), the gate every command passes (R138), the watchdog's interrupt (R121, R144)
and the reset of the block (R157, R158). -/

namespace Sys2Proof.Machine

/-! ### The frame buffer as memory

Canonical form: indexes strictly rising and below `FRAME_MAX`. An index that is not listed has no value, so no entry can
equal what an unlisted index reads as. -/

/-- The cells from index `lo` on are in canonical form. -/
def Memory.wfFrom : Nat → Memory → Bool
  | _, [] => true
  | lo, (a, _) :: m => decide (lo ≤ a) && decide (a < Config.frameMax) && Memory.wfFrom (a + 1) m

/-- The canonical form. -/
def Memory.wf (m : Memory) : Bool := Memory.wfFrom 0 m

/-- The content of index `i`, if any append has written it. -/
def Memory.read : Memory → Nat → Option Byte
  | [], _ => none
  | (a, x) :: m, i => if a = i then some x else Memory.read m i

/-- Index `i` becomes `b`; every other index keeps its content. -/
def Memory.write : Memory → Nat → Byte → Memory
  | [], i, b => [(i, b)]
  | (a, x) :: m, i, b =>
    if i < a then (i, b) :: (a, x) :: m
    else if i = a then (i, b) :: m
    else (a, x) :: Memory.write m i b

/-- Whether byte `i` has been written since reset: `frame_written[i]` (R33). -/
def State.frameWrittenAt (s : State) (i : Nat) : Bool := s.frameWritten.getLsbD i

/-- The value of frame byte `i` where the spec gives it one: what the most recent append wrote there since reset (R33). -/
def State.frameByte (s : State) (i : Nat) : Option Byte :=
  if s.frameWrittenAt i then Memory.read s.frame i else none

/-- `FrameWrite(i, b)` (R57). -/
def frameWrite (i : Nat) (b : Byte) (s : State) : State :=
  { s with
    frame := Memory.write s.frame i b
    frameWritten := s.frameWritten ||| BitVec.twoPow 256 i }

/-- `draw u8` (R12): the next free value (notes/assumptions/7.md). -/
def draw (s : State) : Byte × State :=
  (Config.freeByte s.draws, { s with draws := s.draws + 1 })

/-- `FrameRead(i)` (R57): 0 beyond `FRAME_MAX`, the written byte, or a draw. -/
def frameRead (i : Nat) (s : State) : Byte × State :=
  if Config.frameMax ≤ i then (0, s)
  else
    match s.frameByte i with
    | some b => (b, s)
    | none => draw s

/-- `FrameRead(i) .. FrameRead(i + n - 1)`, in rising order (R56). -/
def frameReads : Nat → Nat → State → List Byte × State
  | 0, _, s => ([], s)
  | n + 1, i, s =>
    let (b, s₁) := frameRead i s
    let (bs, s₂) := frameReads n (i + 1) s₁
    (b :: bs, s₂)

/-! ### The append primitive (R98) -/

/-- `Append(b)` -/
def append (b : Byte) (s : State) : State :=
  if s.frmLen.toNat < Config.frameMax then
    { frameWrite s.frmLen.toNat b s with frmLen := s.frmLen + 1 }
  else
    { s with frmOvf := true }

/-- `Append` once per byte, in order. -/
def appendAll (bs : List Byte) (s : State) : State :=
  bs.foldl (fun s b => append b s) s

/-! ### The CRC (R89, R91) -/

/-- One bit position of the update: shift left, and XOR with the polynomial when the top bit was set. -/
def crcShift (c : Half) : Half :=
  if c.msb then (c <<< 1) ^^^ Config.crcPoly else c <<< 1

/-- `n` bit positions. -/
def crcShifts : Nat → Half → Half
  | 0, c => c
  | n + 1, c => crcShifts n (crcShift c)

/-- `crc16_update(c, b)` (R89): the byte enters the high byte, then 8 bit positions. -/
def crc16Update (c : Half) (b : Byte) : Half :=
  crcShifts 8 (c ^^^ (b.setWidth 16 <<< 8))

/-- `CRC16(m)` (R91). -/
def crc16 (m : List Byte) : Half := m.foldl crc16Update Config.crcInit

/-- `S.crc <- crc16_update(S.crc, b)` -/
def feedCrc (b : Byte) (s : State) : State := { s with crc := crc16Update s.crc b }

/-- The byte enters the CRC and is appended, in that order (R103); a dropped byte enters the CRC all the same (R98). -/
def appendPayload (b : Byte) (s : State) : State := append b (feedCrc b s)

/-- The first lines of `FENC` and `FRM_FIXED` (R102, R104): the pair of `opnd` goes to `FENC_RES`, and the sticky range
flag is set when the reading is out of range. -/
def encodeReading (s : State) : State :=
  { s with
    fencInt := intByte s.opnd
    fencFrac := fracByte s.opnd
    fencRng := s.fencRng || readingOutOfRange s.opnd }

/-- `emit SIGNAL` (R12). -/
def emit (sig : Signal) (s : State) : State := { s with history := sig :: s.history }

/-! ### Rejected commands (R137, R138, R147) -/

/-- `raise CmdError(code)` (R137): the first code since the last clear is kept, and nothing else changes. -/
def cmdError (code : ErrCode) (s : State) : State :=
  { s with
    errCode := if s.cmdErr then s.errCode else code
    cmdErr := true }

/-- The gate of every legal command (R138): while `BUSY` = 1 it is rejected with `ERR_BUSY`. -/
def whenIdle (effect : State → State) (s : State) : Host.Outcome State Fault Refusal :=
  if s.busy then .next (cmdError .busy s) else .next (effect s)

/-! ### The interrupt: the watchdog tick (R121, R143, R144)

Entry saves nothing and switches no mode, and the return is the end of the same step, so taking the interrupt and returning
from it are this one operation. -/

/-- `tick` is enabled when `init = 1` and `irq_dis = 0` (R121). -/
def State.tickEnabled (s : State) : Bool := s.init && !s.irqDis

/-- The wake (R130): out of power-down to `ARMED`. -/
def wake (s : State) : State :=
  { s with pdReq := false, bodOff := false, fsm := .armed }

/-- `Tick()` (R121): `ticks` wraps at 2^16; in `SLEEPING` the tick also wakes the unit. -/
def tickHandler (s : State) : State :=
  let s₁ := { s with ticks := s.ticks + 1 }
  if s.fsm = .sleeping then wake s₁ else s₁

/-- A tick of the watchdog: taken when enabled, otherwise lost (R122). -/
def tick (s : State) : State :=
  if s.tickEnabled then tickHandler s else s

/-! ### Reset (R157, R158, R39) -/

/-- Every state element takes its value of R39; `frame[]` keeps its contents, unreadable since `frame_written[]` is cleared.
The inputs, the parameter and the model's own fields are no state elements. -/
def resetBlock (s : State) : State :=
  { s with
    crc := 0
    frameWritten := 0
    frmLen := 0
    opnd := 0
    fencInt := 0
    fencFrac := 0
    matched := false
    frmOvf := false
    fencRng := false
    cmdErr := false
    errCode := .none
    cfgFailsafeEn := true
    cfgTxtMode := false
    init := false
    fsm := .awake
    ticks := 0
    cycles := 0
    wdtIe := false
    pdEn := false
    adcEn := true
    ainFloat := false
    pdReq := false
    bodOff := false
    irqDis := false }

end Sys2Proof.Machine
end

