-- ==== Sys2Proof/Machine/Crc.lean ====
section
/-! DEFINITION. The CRC unit's commands (spec/40_crc.md). -/

namespace Sys2Proof.Machine

/-- `CRC_INIT` (R92): `S.crc <- 0x0000`. -/
def execCrcInit (s : State) : Host.Outcome State Fault Refusal :=
  whenIdle (fun s => { s with crc := Config.crcInit }) s

/-- `CRC_BYTE b` (R93): `S.crc <- crc16_update(S.crc, b)`; nothing is appended. -/
def execCrcByte (b : Byte) (s : State) : Host.Outcome State Fault Refusal :=
  whenIdle (feedCrc b) s

/-- `CRC_VERIFY h` (R94): `S.match <- (S.crc = h) ? 1 : 0`. -/
def execCrcVerify (h : Half) (s : State) : Host.Outcome State Fault Refusal :=
  whenIdle (fun s => { s with matched := s.crc == h }) s

end Sys2Proof.Machine
end

