-- ==== Sys2Proof/Machine/Frame.lean ====
section
/-! DEFINITION. The frame unit's commands (spec/41_frame.md). -/

namespace Sys2Proof.Machine

/-- `FRM_START` (R99): `frm_len` and `crc` only; the buffer and the sticky flags stay. -/
def execFrmStart (s : State) : Host.Outcome State Fault Refusal :=
  whenIdle (fun s => { s with frmLen := 0, crc := Config.crcInit }) s

/-- `FRM_BYTE b` (R103) -/
def execFrmByte (b : Byte) (s : State) : Host.Outcome State Fault Refusal :=
  whenIdle (appendPayload b) s

/-- `FENC` (R102): `FENC_RES` and the range flag; nothing is appended. -/
def execFenc (s : State) : Host.Outcome State Fault Refusal :=
  whenIdle encodeReading s

/-- `FRM_FIXED` (R104): as `FENC`, then the integer byte and the fractional byte as payload. -/
def execFrmFixed (s : State) : Host.Outcome State Fault Refusal :=
  whenIdle (fun s => appendPayload (fracByte s.opnd) (appendPayload (intByte s.opnd) (encodeReading s))) s

/-- `FRM_CRC` (R105): in binary mode the checksum, low byte first; in text mode nothing. -/
def execFrmCrc (s : State) : Host.Outcome State Fault Refusal :=
  whenIdle (fun s => if s.cfgTxtMode then s else appendAll [lowByte s.crc, highByte s.crc] s) s

/-- `FRM_RAW b` (R106): appended without entering the CRC. -/
def execFrmRaw (b : Byte) (s : State) : Host.Outcome State Fault Refusal :=
  whenIdle (append b) s

/-- `FRM_DEC2 b` (R109): the zero-padded rendering. -/
def execFrmDec2 (b : Byte) (s : State) : Host.Outcome State Fault Refusal :=
  whenIdle (appendAll (dec2 b)) s

/-- `FRM_DEC b` (R110): the plain rendering. -/
def execFrmDec (b : Byte) (s : State) : Host.Outcome State Fault Refusal :=
  whenIdle (appendAll (dec b)) s

end Sys2Proof.Machine
end

