-- ==== Sys2Proof/Machine/Sleep.lean ====
section
/-! DEFINITION. The sleep unit (spec/42_sleep.md): its two commands and the block's own step. -/

namespace Sys2Proof.Machine

/-! ### Commands -/

/-- The effect of `SLP_INIT` outside a sleep (R124). -/
def slpInit (s : State) : State :=
  if s.init then cmdError .reinit s
  else { s with wdtIe := true, adcEn := false, pdEn := true, init := true }

/-- `SLP_INIT` (R124): `ERR_BUSY` before `ERR_REINIT` (R147). -/
def execSlpInit (s : State) : Host.Outcome State Fault Refusal :=
  whenIdle slpInit s

/-- The forced path of an accepted `SLP_SLEEP` (R127). -/
def enterForcedSleep (s : State) : State :=
  { s with irqDis := true, bodOff := true, pdReq := true, fsm := .forcedSleep }

/-- The normal path of an accepted `SLP_SLEEP` (R127), with its `wdt_restart` pulse. -/
def armSleep (s : State) : State :=
  emit .wdtRestart { s with ticks := 0, adcEn := false, ainFloat := true, fsm := .armed }

/-- The acceptance step of `SLP_SLEEP h` (R127): `cycles` is latched on both paths, and `vlow` is sampled here only. -/
def acceptSleep (h : Half) (s : State) : State :=
  let s₁ := { s with cycles := h }
  if s.cfgFailsafeEn && s.vlow then enterForcedSleep s₁ else armSleep s₁

/-- `SLP_SLEEP h` (R126): `ERR_BUSY`, then `ERR_NOT_INIT`, then the acceptance. -/
def execSlpSleep (h : Half) (s : State) : Host.Outcome State Fault Refusal :=
  whenIdle (fun s => if s.init then acceptSleep h s else cmdError .notInit s) s

/-! ### Block steps -/

/-- `EnterPowerDown()` (R129) -/
def enterPowerDown (s : State) : State :=
  { s with bodOff := true, pdReq := true, fsm := .sleeping }

/-- `Return()` (R131): `ain_float`, `ticks` and `cycles` keep their values; the held write completes, since `fsm` is
`AWAKE` again (R145). -/
def returnFromSleep (s : State) : State :=
  { s with adcEn := true, fsm := .awake }

/-- `ArmedStep()` (R128): the check and the power-down entry are one step. -/
def armedStep (s : State) : State :=
  if s.cycles ≤ s.ticks then returnFromSleep s else enterPowerDown s

/-- The block's step where it is enabled, that is in `ARMED` (R128); nowhere else does the block step. -/
def blockStep (s : State) : State :=
  if s.fsm = .armed then armedStep s else s

end Sys2Proof.Machine
end

