-- ==== Sys2Proof/Machine/Dispatch.lean ====
section
/-! DEFINITION. The meaning of every command: one arm per constructor of `Instr`. -/

namespace Sys2Proof.Machine

-- The effect of a legal command in the step that writes its word to `CMD` (R9, R23).
def exec (i : Instr) (s : State) : Host.Outcome State Fault Refusal :=
  match i with
  | .crcInit => Sys2Proof.Machine.execCrcInit s
  | .crcByte b => Sys2Proof.Machine.execCrcByte b s
  | .crcVerify h => Sys2Proof.Machine.execCrcVerify h s
  | .frmStart => Sys2Proof.Machine.execFrmStart s
  | .frmByte b => Sys2Proof.Machine.execFrmByte b s
  | .fenc => Sys2Proof.Machine.execFenc s
  | .frmFixed => Sys2Proof.Machine.execFrmFixed s
  | .frmCrc => Sys2Proof.Machine.execFrmCrc s
  | .frmRaw b => Sys2Proof.Machine.execFrmRaw b s
  | .frmDec2 b => Sys2Proof.Machine.execFrmDec2 b s
  | .frmDec b => Sys2Proof.Machine.execFrmDec b s
  | .slpInit => Sys2Proof.Machine.execSlpInit s
  | .slpSleep h => Sys2Proof.Machine.execSlpSleep h s

end Sys2Proof.Machine
end

