-- ==== Sys2Proof/Machine/Registers.lean ====
section
/-! DEFINITION. The register map (R22): names, offsets, and what a read of each register returns (R23 to R32). -/

namespace Sys2Proof.Machine

/-- The registers of the window (R22). -/
inductive Reg where
  | cmd | opnd | status | crc | frmLen | fencRes | ticks | cycles | cfg | out
  deriving DecidableEq, Repr

/-- The offset of each register (R22). -/
def Reg.offset : Reg → Nat
  | .cmd => 0x000
  | .opnd => 0x004
  | .status => 0x008
  | .crc => 0x00C
  | .frmLen => 0x010
  | .fencRes => 0x014
  | .ticks => 0x018
  | .cycles => 0x01C
  | .cfg => 0x020
  | .out => 0x024

/-- The registers in the order of R22. -/
def Reg.all : List Reg := [.cmd, .opnd, .status, .crc, .frmLen, .fencRes, .ticks, .cycles, .cfg, .out]

/-- The register at an offset of the register area; the reserved offsets have none (R34). -/
def regAt (off : Nat) : Option Reg := Reg.all.find? (fun r => r.offset == off)

/-- What a read of a register returns (R23 to R32). -/
def readReg : Reg → State → Word
  | .cmd, _ => 0
  | .opnd, s => s.opnd
  | .status, s => statusWord s
  | .crc, s => s.crc.setWidth 32
  | .frmLen, s => s.frmLen.setWidth 32
  | .fencRes, s => fencResWord s
  | .ticks, s => s.ticks.setWidth 32
  | .cycles, s => s.cycles.setWidth 32
  | .cfg, s => cfgWord s
  | .out, s => outWord s

/-- `RegRead(off)` (R55): a reserved offset reads 0 (R34). -/
def regRead (off : Nat) (s : State) : Word :=
  match regAt off with
  | some r => readReg r s
  | none => 0

end Sys2Proof.Machine
end

