-- ==== Sys2Proof/Machine/Bus.lean ====
section
/-! DEFINITION. The register window on the bus (spec/20_memory.md): `CMD` writes, register and frame accesses, bus errors,
and accesses that are not addressed to the block. -/

namespace Sys2Proof.Machine

/-- A 32-bit write to `CMD` (R23): a legal word is executed, an illegal one is recorded (R78). Decoding comes before every
other check (R147). -/
def writeCmd (w : Word) (s : State) : Host.Outcome State Fault Refusal :=
  match decode w with
  | .ok i => exec i s
  | .error _ => .next (cmdError .illegal s)

/-- `RegWrite(off, wdata)` (R55): only `CMD`, `OPND`, `STATUS` and `CFG` react (R61); read-only registers and reserved
offsets ignore the write (R27 to R30, R32, R34). -/
def regWrite (off : Nat) (w : Word) (s : State) : Host.Outcome State Fault Refusal :=
  match regAt off with
  | some .cmd => writeCmd w s
  | some .opnd => .next { s with opnd := w }
  | some .status => .next (writeStatus w s)
  | some .cfg => .next (writeCfg w s)
  | some .crc | some .frmLen | some .fencRes | some .ticks | some .cycles | some .out | none => .next s

/-- `RegAccess` (R55) accepts 32-bit accesses at multiples of 4. -/
def regAccepts (off width : Nat) : Bool := width == 4 && off % 4 == 0

/-- `FrameAccess` (R56) accepts 1, 2 and 4 bytes, naturally aligned. -/
def frameAccepts (off width : Nat) : Bool :=
  (width == 1 || width == 2 || width == 4) && off % width == 0

/-- Whether an access at window offset `off` is accepted. -/
def accepts (off width : Nat) : Bool :=
  if off < Config.frameOffset then regAccepts off width else frameAccepts off width

/-- The answer to a read is the word the host sees. -/
def answer (w : Word) (s : State) : State := { s with rdata := w }

/-- A read of the frame area at frame index `i` (R56, R58). -/
def frameAnswer (i width : Nat) (s : State) : State :=
  let (bs, s₁) := frameReads width i s
  answer (wordOfBytes bs) s₁

/-- An accepted read. -/
def windowRead (off width : Nat) (s : State) : State :=
  if off < Config.frameOffset then answer (regRead off s) s
  else frameAnswer (off - Config.frameOffset) width s

/-- An accepted write; the frame area ignores it (R56). -/
def windowWrite (off : Nat) (w : Word) (s : State) : Host.Outcome State Fault Refusal :=
  if off < Config.frameOffset then regWrite off w s else .next s

/-- Whether an address lies in the window (R54). -/
def State.inWindow (s : State) (a : Nat) : Bool :=
  decide (s.base ≤ a) && decide (a < s.base + Config.windowSize)

/-- One host access (R54 to R56, R60): an address outside the window is not the block's, an access that is not accepted is
answered with a bus error (R141), and no effect of it lands (R62). -/
def busAccess (a : Access) (s : State) : Host.Outcome State Fault Refusal :=
  match a with
  | .read addr width =>
    if !s.inWindow addr then .next s
    else if accepts (addr - s.base) width then .next (windowRead (addr - s.base) width s)
    else .fault (.busError addr)
  | .write addr width w =>
    if !s.inWindow addr then .next s
    else if accepts (addr - s.base) width then windowWrite (addr - s.base) w s
    else .fault (.busError addr)

end Sys2Proof.Machine
end

