-- ==== Sys2Proof/Machine/Agents.lean ====
section
/-! DEFINITION. The agents and their moves (R8, R9): host, second master, watchdog, block, environment; and the hold that
`rst_n` keeps on the state while it is low (R157). -/

namespace Sys2Proof.Machine

/-- The host is held in its `SLP_SLEEP` write (R145): in every state but `AWAKE` that write is outstanding (R119). -/
def State.hostHeld (s : State) : Bool := s.busy

/-- The host's move: its next access, in program order (R63). Held, or with nothing left to do, it has no step. -/
def hostMove (s : State) : Host.Outcome State Fault Refusal :=
  if s.hostHeld then .next s
  else
    match s.hostOps with
    | [] => .next s
    | a :: ops => busAccess a { s with hostOps := ops }

/-- The environment drives `rst_n` (R157): every state element takes its reset value when it goes or stays low, and in the
step that releases it. A level that stays high changes nothing. -/
def driveReset (level : Bool) (s : State) : State :=
  let s₁ := { s with rstN := level }
  if level && s.rstN then s₁ else resetBlock s₁

/-- The move of one agent. A move that is not enabled does nothing: a tick is lost (R122), the block does not step outside
`ARMED` (R128), the held host waits (R145). -/
def agentMove (e : Event) (s : State) : Host.Outcome State Fault Refusal :=
  match e with
  | .host => hostMove s
  | .second a => busAccess a s
  | .tick => .next (tick s)
  | .block => .next (blockStep s)
  | .vlow level => .next { s with vlow := level }
  | .rstN level => .next (driveReset level s)

/-- While `rst_n` is low every state element holds its reset value, whatever moved (R157; notes/assumptions/10.md). -/
def holdInReset (o : Host.Outcome State Fault Refusal) : Host.Outcome State Fault Refusal :=
  match o with
  | .next s => .next (resetBlock s)
  | .fault r => .fault r
  | .refused r => .refused r

/-- The move of one agent under the level of `rst_n`. -/
def takeEvent (e : Event) (s : State) : Host.Outcome State Fault Refusal :=
  if s.rstN then agentMove e s else holdInReset (agentMove e s)

/-- No event is left. `FORCED_SLEEP` is then the halted outcome (R19, R132); in every other state the machine waits
(notes/assumptions/3.md). -/
def noEvent (s : State) : Host.Outcome State Fault Refusal :=
  if s.fsm = .forcedSleep then .fault .halted else .next s

/-- The write of a command word to `CMD` in one access (R23, R73). -/
def cmdWrite (w : Word) (s : State) : Access := .write (s.base + Reg.cmd.offset) 4 w

/-- Places the write of a command word where the next step takes it: as the host's next access where the host may move, and as
a second master's where the host is held (R140). `rst_n` is released, since no command runs under reset. -/
def placeCommand (w : Word) (s : State) : State :=
  if s.hostHeld then
    { s with rstN := true, sched := .second (cmdWrite w s) :: s.sched }
  else
    { s with rstN := true, hostOps := cmdWrite w s :: s.hostOps, sched := .host :: s.sched }

end Sys2Proof.Machine
end

