-- ==== Sys2Proof/Machine/Step.lean ====
section
/-! DEFINITION. One step of the machine: the next entry of the schedule moves (R8 to R10, R146). -/

namespace Sys2Proof.Machine

/-- One step: the agent that the schedule names next takes its move. -/
def step (s : State) : Host.Outcome State Fault Refusal :=
  match s.sched with
  | [] => noEvent s
  | e :: rest => takeEvent e { s with sched := rest }

/-- `s` with a command word placed so that the next step runs it (notes/assumptions/1.md). Bits of `w` above `nbits` are 0. -/
def State.withFetchWord (s : State) (nbits w : Nat) : State :=
  placeCommand (BitVec.ofNat 32 (w % 2 ^ nbits)) s

end Sys2Proof.Machine
end

