-- ==== Sys2Proof/Machine/HostAsm.lean ====
section
/-! DEFINITION. The host's side as the spec writes it down: operation lines and pseudo-instructions with their expansion
(R81, R83), the conversion of a decimal reading (R83, R14), the text of a line, its parser and the disassembler (R81, R84),
and the host sequences of the two frame layouts (R115, R116). Nothing here changes the block. -/

namespace Sys2Proof.Machine

/-! ### Decimal readings (R83, R14) -/

/-- A decimal reading: `mantissa / 10^places`. -/
structure Decimal where
  mantissa : Int
  places : Nat
  deriving DecidableEq, Repr

/-- `roundHalfAway(n / d)` (R14): to the nearest integer, halves away from zero. -/
def roundHalfAway (n : Int) (d : Nat) : Int :=
  let q : Nat := (2 * n.natAbs + d) / (2 * d)
  if n < 0 then -(q : Int) else q

/-- `q(v) = roundHalfAway(v * 65536)` (R83). -/
def Decimal.q (v : Decimal) : Int := roundHalfAway (v.mantissa * 65536) (10 ^ v.places)

/-- Whether a value is an `s32`. -/
def isS32 (x : Int) : Bool := decide (-2147483648 ≤ x) && decide (x ≤ 2147483647)

/-! ### Lines and their expansion (R81, R83) -/

/-- One line of a host program: an operation (R81) or a pseudo-instruction (R83). -/
inductive HostLine where
  | cmd (l : CmdLine)
  | wr (reg : Reg) (value : Nat)
  | rd (reg : Reg)
  | rdb (i : Nat)
  | rdw (i : Nat)
  | fixed (v : Decimal)
  | enc (v : Decimal)
  | bytes (bs : List Nat)
  | text (cs : List Char)
  | crcs (bs : List Nat)
  | clrstat
  | profile (failsafeEn txtMode : Bool)
  deriving DecidableEq, Repr

/-- An operand outside its range is refused (R81); a character is 7-bit ASCII (R13). -/
def HostLine.wellFormed : HostLine → Bool
  | .cmd l => l.wellFormed
  | .wr _ v => v < 2 ^ 32
  | .rd _ => true
  | .rdb i | .rdw i => i < Config.frameMax
  | .fixed v | .enc v => isS32 v.q
  | .bytes bs | .crcs bs => bs.all (· < 256)
  | .text cs => cs.all (·.toNat < 128)
  | .clrstat | .profile _ _ => true

/-- `wr REG, value` -/
def wrAccess (base : Nat) (r : Reg) (w : Word) : Access := .write (base + r.offset) 4 w

/-- `rd REG` -/
def rdAccess (base : Nat) (r : Reg) : Access := .read (base + r.offset) 4

/-- A command line stands for `wr CMD, <its word>` (R81). -/
def cmdAccess (base : Nat) (i : Instr) : Access := wrAccess base .cmd (encode i)

/-- The accesses of a well-formed line (R81, R83). -/
def HostLine.expand (base : Nat) : HostLine → List Access
  | .cmd l => [cmdAccess base (l.op.instr (l.operand.getD 0))]
  | .wr r v => [wrAccess base r (BitVec.ofNat 32 v)]
  | .rd r => [rdAccess base r]
  | .rdb i => [.read (base + Config.frameOffset + i) 1]
  | .rdw i => [.read (base + Config.frameOffset + i) 4]
  | .fixed v => [wrAccess base .opnd (BitVec.ofInt 32 v.q), cmdAccess base .frmFixed]
  | .enc v => [wrAccess base .opnd (BitVec.ofInt 32 v.q), cmdAccess base .fenc]
  | .bytes bs => bs.map (fun b => cmdAccess base (.frmByte (BitVec.ofNat 8 b)))
  | .text cs => cs.map (fun c => cmdAccess base (.frmRaw (BitVec.ofNat 8 c.toNat)))
  | .crcs bs => cmdAccess base .crcInit :: bs.map (fun b => cmdAccess base (.crcByte (BitVec.ofNat 8 b)))
  | .clrstat => [wrAccess base .status 0x00000038]
  | .profile f t => [wrAccess base .cfg (flagWord (BitVec.ofBool t ++ BitVec.ofBool f))]

/-- The assembler over a program: refused as a whole when a line is ill-formed (R81). -/
def assembleProgram (base : Nat) (p : List HostLine) : Option (List Access) :=
  if p.all HostLine.wellFormed then some (p.flatMap (HostLine.expand base)) else none

/-- The host's accesses made one after another, with no other agent between them (R63). -/
def runAccesses : List Access → State → Host.Outcome State Fault Refusal
  | [], s => .next s
  | a :: as, s =>
    match busAccess a s with
    | .next s' => runAccesses as s'
    | .fault r => .fault r
    | .refused r => .refused r

/-! ### Text of a command line, parser and disassembler (R81, R84) -/

/-- A mnemonic as the opcode map spells it (R76). -/
def mnemonicText : Mnemonic → List Char
  | .crcInit => ['C', 'R', 'C', '_', 'I', 'N', 'I', 'T']
  | .crcByte => ['C', 'R', 'C', '_', 'B', 'Y', 'T', 'E']
  | .crcVerify => ['C', 'R', 'C', '_', 'V', 'E', 'R', 'I', 'F', 'Y']
  | .frmStart => ['F', 'R', 'M', '_', 'S', 'T', 'A', 'R', 'T']
  | .frmByte => ['F', 'R', 'M', '_', 'B', 'Y', 'T', 'E']
  | .fenc => ['F', 'E', 'N', 'C']
  | .frmFixed => ['F', 'R', 'M', '_', 'F', 'I', 'X', 'E', 'D']
  | .frmCrc => ['F', 'R', 'M', '_', 'C', 'R', 'C']
  | .frmRaw => ['F', 'R', 'M', '_', 'R', 'A', 'W']
  | .frmDec2 => ['F', 'R', 'M', '_', 'D', 'E', 'C', '2']
  | .frmDec => ['F', 'R', 'M', '_', 'D', 'E', 'C']
  | .slpInit => ['S', 'L', 'P', '_', 'I', 'N', 'I', 'T']
  | .slpSleep => ['S', 'L', 'P', '_', 'S', 'L', 'E', 'E', 'P']

/-- The mnemonics in the order of R76. -/
def allMnemonics : List Mnemonic :=
  [.crcInit, .crcByte, .crcVerify, .frmStart, .frmByte, .fenc, .frmFixed, .frmCrc, .frmRaw, .frmDec2, .frmDec, .slpInit,
    .slpSleep]

/-- A hexadecimal digit. -/
def hexDigit (n : Nat) : Char := if n < 10 then Char.ofNat (48 + n) else Char.ofNat (55 + n)

/-- The low `d` hexadecimal digits of `n`, the highest first. -/
def hexDigits : Nat → Nat → List Char
  | 0, _ => []
  | d + 1, n => hexDigit (n / 16 ^ d % 16) :: hexDigits d n

/-- `0x` and `d` digits (notes/assumptions/17.md). -/
def hexText (d n : Nat) : List Char := '0' :: 'x' :: hexDigits d n

/-- A legal word is printed as its mnemonic, followed by its operand in hexadecimal, or by nothing for format N (R84). -/
def instrText (i : Instr) : List Char :=
  match i.operand, i.mnemonic.format with
  | none, _ => mnemonicText i.mnemonic
  | some v, .h => mnemonicText i.mnemonic ++ ' ' :: hexText 4 v
  | some v, _ => mnemonicText i.mnemonic ++ ' ' :: hexText 2 v

/-- The disassembler (R84): an illegal word is printed as `.illegal 0x<word>`. -/
def disassemble (w : Word) : List Char :=
  match decode w with
  | .ok i => instrText i
  | .error _ => ['.', 'i', 'l', 'l', 'e', 'g', 'a', 'l', ' '] ++ hexText 8 w.toNat

/-- The value of a digit in a base up to 16. -/
def digitValue (radix : Nat) (c : Char) : Option Nat :=
  let n := c.toNat
  let v :=
    if 48 ≤ n ∧ n ≤ 57 then n - 48
    else if 65 ≤ n ∧ n ≤ 70 then n - 55
    else if 97 ≤ n ∧ n ≤ 102 then n - 87
    else radix
  if v < radix then some v else none

/-- A numeral in a base, after the digits already read. -/
def parseDigits (radix : Nat) : Nat → List Char → Option Nat
  | acc, [] => some acc
  | acc, c :: cs =>
    match digitValue radix c with
    | some v => parseDigits radix (acc * radix + v) cs
    | none => none

/-- An operand: decimal, `0x..`, or a quoted character (R81). DESIGN CHOICE: R81 gives these written forms for a format B operand
and only a range for a format H operand; the parser takes all three for both (notes/assumptions/17.md). -/
def parseOperand : List Char → Option Nat
  | [] => none
  | ['\'', c, '\''] => if c.toNat < 128 then some c.toNat else none
  | ['0', 'x'] => none
  | '0' :: 'x' :: ds => parseDigits 16 0 ds
  | ds => parseDigits 10 0 ds

/-- A command line from its text (R81). -/
def parseLine (cs : List Char) : Option CmdLine :=
  match allMnemonics.find? (fun m => mnemonicText m == cs.takeWhile (· != ' ')), cs.dropWhile (· != ' ') with
  | some m, [] => some ⟨m, none⟩
  | some m, _ :: op => (parseOperand op).map (fun v => ⟨m, some v⟩)
  | none, _ => none

/-! ### The frames the host builds (R115, R116) -/

/-- A command line of an instruction. -/
def line (i : Instr) : HostLine := .cmd i.line

/-- The lines of one channel (R115): `wr OPND, reading ; FRM_FIXED`. -/
def channelLines (o : Word) : List HostLine := [.wr .opnd o.toNat, line .frmFixed]

/-- The payload part of the binary sequence: everything but `FRM_CRC` (R115). -/
def binaryPayload (nodeId deviceId : List Byte) (readings : List Word) (auxStatus : Byte) : List HostLine :=
  line .frmStart :: (nodeId.map (fun b => line (.frmByte b)) ++ deviceId.map (fun b => line (.frmByte b))
    ++ readings.flatMap channelLines ++ [line (.frmByte auxStatus)])

/-- The binary wire frame (R115). -/
def binaryFrame (nodeId deviceId : List Byte) (readings : List Word) (auxStatus : Byte) : List HostLine :=
  binaryPayload nodeId deviceId readings auxStatus ++ [line .frmCrc]

/-- `FRM_RAW` of each ASCII code of a piece of the template. -/
def rawLines (codes : List Byte) : List HostLine := codes.map (fun b => line (.frmRaw b))

/-- `{"number":"` -/
def tplNumber : List Byte := [0x7B, 0x22, 0x6E, 0x75, 0x6D, 0x62, 0x65, 0x72, 0x22, 0x3A, 0x22]

/-- `","data":{"t0":"` -/
def tplData : List Byte :=
  [0x22, 0x2C, 0x22, 0x64, 0x61, 0x74, 0x61, 0x22, 0x3A, 0x7B, 0x22, 0x74, 0x30, 0x22, 0x3A, 0x22]

/-- `","t1":"` -/
def tplT1 : List Byte := [0x22, 0x2C, 0x22, 0x74, 0x31, 0x22, 0x3A, 0x22]

/-- `","h":"` -/
def tplH : List Byte := [0x22, 0x2C, 0x22, 0x68, 0x22, 0x3A, 0x22]

/-- `","l":"0"}}` -/
def tplL : List Byte := [0x22, 0x2C, 0x22, 0x6C, 0x22, 0x3A, 0x22, 0x30, 0x22, 0x7D, 0x7D]

/-- The rendering of one reading in the text: `FRM_DEC i ; FRM_RAW '.' ; FRM_DEC f` (R116). -/
def readingLines (pair : Byte × Byte) : List HostLine :=
  [line (.frmDec pair.1), line (.frmRaw 0x2E), line (.frmDec pair.2)]

/-- The textual frame (R116), with the pairs of channels 0 and 1 from `FENC`. -/
def textFrame (nodeId deviceId : List Byte) (pair₀ pair₁ : Byte × Byte) (auxStatus : Byte) : List HostLine :=
  line .frmStart :: (rawLines nodeId ++ rawLines tplNumber ++ deviceId.map (fun b => line (.frmDec2 b)) ++ rawLines tplData
    ++ readingLines pair₀ ++ rawLines tplT1 ++ readingLines pair₁ ++ rawLines tplH ++ [line (.frmDec auxStatus)]
    ++ rawLines tplL)

end Sys2Proof.Machine
end

