-- ==== Sys2Proof/Safety.lean ====
section
/-! DEFINITION. The vocabulary of the claims: what a good end and a halt are (R19, R155), the invariants, what it is to
append bytes (R98) and to reject a command (R137), runs of commands and of sleep moves, the `ARMED` bound (R134), fair infinite runs
(R10), and the rules a host program must respect (R160, R165, R168). -/

namespace Sys2Proof.Machine

/-! ### Ends of a run -/

/-- The end of a run (R19): the host has completed its last access, with the sleep unit in `AWAKE`. DESIGN CHOICE: a run whose last
access is a held `SLP_SLEEP` that a reset abandoned (R157), also out of `FORCED_SLEEP`, counts as ended, since nothing is left of
the host's accesses then; the spec does not say whether it has (notes/assumptions/11.md). A claim about completed runs takes
`NoReset` of its schedule as a premise. -/
def Ended (s : State) : Prop := s.hostOps = [] ∧ s.fsm = .awake

/-- The halted outcome of a run (R19, R132): `FORCED_SLEEP`, which is never a normal end. -/
def Halted (s : State) : Prop := s.fsm = .forcedSleep

/-- `STATUS[5:3]` = 0: the premise R155 lets a claim take at the end of a run. -/
def NoErrorFlags (s : State) : Prop := (statusWord s).extractLsb' 3 3 = 0

/-- The one host of R8: nothing is scheduled for a second master (R140). -/
def OneHost (s : State) : Prop := ∀ a, Event.second a ∉ s.sched

/-- Nothing drives `rst_n` in a schedule. -/
def NoReset (es : List Event) : Prop := ∀ level, Event.rstN level ∉ es

/-! ### Invariants -/

/-- The frame buffer: canonical cells, `frm_len` in 0..`FRAME_MAX` (R28), a written byte has a content (R57), and every byte
below `frm_len` is written (R98). -/
abbrev FrameInv (s : State) : Prop :=
  Memory.wf s.frame = true ∧ s.frmLen.toNat ≤ Config.frameMax
    ∧ (∀ i, i < Config.frameMax → s.frameWrittenAt i = true → (Memory.read s.frame i).isSome = true)
    ∧ (∀ i, i < s.frmLen.toNat → s.frameWrittenAt i = true)

/-- The sleep unit's signals against its state: the watchdog and the power-down mode are configured exactly by `SLP_INIT`
(R35), `pd_req` and `bod_off` are 1 exactly in the two power-down states (R153, R172), `irq_dis` exactly in `FORCED_SLEEP`
(R35), no sleep runs before `SLP_INIT` (R126), the analog side is off in a normal sleep (R127), power-down is entered short of
the requested count (R129), and before `SLP_INIT` nothing has moved (R121, R124). -/
abbrev SleepInv (s : State) : Prop :=
  s.wdtIe = s.init ∧ s.pdEn = s.init
    ∧ s.pdReq = (s.fsm == .sleeping || s.fsm == .forcedSleep)
    ∧ s.bodOff = (s.fsm == .sleeping || s.fsm == .forcedSleep)
    ∧ s.irqDis = (s.fsm == .forcedSleep)
    ∧ (s.fsm ≠ .awake → s.init = true)
    ∧ (s.fsm = .armed ∨ s.fsm = .sleeping → s.adcEn = false ∧ s.ainFloat = true)
    ∧ (s.fsm = .sleeping → s.ticks < s.cycles)
    ∧ (s.init = false → s.ticks = 0 ∧ s.cycles = 0 ∧ s.adcEn = true ∧ s.ainFloat = false)

/-- The error record: a code is recorded exactly while `cmd_err` is set (R137, R26). -/
abbrev ErrorInv (s : State) : Prop := s.cmdErr = false ↔ s.errCode = .none

/-- While `rst_n` is low every state element holds its reset value (R157). -/
abbrev ResetInv (s : State) : Prop := s.rstN = false → resetBlock s = s

/-- `BASE` is a multiple of 512 (R53). -/
abbrev BaseInv (s : State) : Prop := s.base % Config.windowSize = 0

/-! ### Effects the claims name -/

/-- What `raise CmdError(code)` leaves (R137), written out. -/
def recorded (code : ErrCode) (s : State) : State :=
  { s with cmdErr := true, errCode := if s.cmdErr = true then s.errCode else code }

/-- `t` is `s` after the bytes `bs` were appended in order (R98): the first `n` of them fit and stand from index `frm_len`
on, `frm_len` counts them, `frm_ovf` is set when one was dropped, every other byte of the buffer reads as before, and nothing
else changed. -/
def Appends (bs : List Byte) (s t : State) : Prop :=
  let n := min bs.length (256 - s.frmLen.toNat)
  t.frmLen.toNat = s.frmLen.toNat + n
    ∧ t.frmOvf = (s.frmOvf || decide (n < bs.length))
    ∧ (∀ i, t.frameByte i =
        if s.frmLen.toNat ≤ i ∧ i < s.frmLen.toNat + n then bs[i - s.frmLen.toNat]? else s.frameByte i)
    ∧ { t with frame := s.frame, frameWritten := s.frameWritten, frmLen := s.frmLen, frmOvf := s.frmOvf } = s

/-- A legal command written while `BUSY` = 1 is rejected with `ERR_BUSY` (R138). -/
def RejectedWhileBusy (i : Instr) : Prop :=
  ∀ s : State, s.fsm ≠ .awake → exec i s = .next (recorded .busy s)

/-- A word with the opcode `opc` and a bit its row's mask fixes otherwise is illegal: writing it to `CMD` records
`ERR_ILLEGAL` and does nothing else (R78). -/
def ReservedBitsIllegal (opc mask : Word) : Prop :=
  ∀ (w : Word) (s : State), w &&& 0xFF = opc → w &&& mask ≠ opc → writeCmd w s = .next (recorded .illegal s)

/-- Commands executed one after another, with no other agent between them (R63). -/
def execAll : List Instr → State → Host.Outcome State Fault Refusal
  | [], s => .next s
  | i :: is, s =>
    match exec i s with
    | .next s' => execAll is s'
    | .fault r => .fault r
    | .refused r => .refused r

/-! ### Exact arithmetic of the encoder (R14, R100) -/

/-- The reading an operand stands for: `v = o / 65536` (R100). -/
def reading (o : Word) : ℚ := (o.toInt : ℚ) / 65536

/-- `trunc(x)` (R14): toward zero. -/
def truncQ (x : ℚ) : Int := if x < 0 then ⌈x⌉ else ⌊x⌋

/-- `roundHalfAway(x)` (R14): to the nearest integer, halves away from zero. -/
def roundHalfAwayQ (x : ℚ) : Int := if x < 0 then -⌊-x + 1 / 2⌋ else ⌊x + 1 / 2⌋

/-! ### The CRC with one mask per byte (R90) -/

/-- One bit position on an unbounded natural: the top-bit test reads bit 15, nothing is masked. -/
def crcShiftWide (c : Nat) : Nat := if c.testBit 15 then (c <<< 1) ^^^ 0x1021 else c <<< 1

/-- The update of one byte, masked to 16 bits only after the byte. -/
def crc16UpdateWide (c : Nat) (b : Byte) : Nat :=
  (Nat.repeat crcShiftWide 8 (c ^^^ (b.toNat <<< 8))) % 65536

/-! ### The access of the next step -/

/-- The bus access that the next step performs, if it performs one: the host's next access where the host is not held (R145),
or a second master's (R140). -/
def nextAccess (s : State) : Option Access :=
  match s.sched with
  | .host :: _ => if s.fsm = .awake then s.hostOps.head? else none
  | .second a :: _ => some a
  | .tick :: _ | .block :: _ | .vlow _ :: _ | .rstN _ :: _ | [] => none

/-! ### Sleep runs -/

/-- The moves of the watchdog and the block; every other agent's move is left out. -/
def sleepMove (e : Event) (s : State) : State :=
  match e with
  | .tick => tick s
  | .block => blockStep s
  | .host | .second _ | .vlow _ | .rstN _ => s

/-- The `ARMED` bound (R134) along a schedule, where `n` ticks have fallen in the current `ARMED` interval so far: every
`ARMED` interval contains fewer than `65536 - cycles` ticks. -/
def armedBound : Nat → List Event → State → Bool
  | _, [], _ => true
  | n, e :: es, s =>
    let n' := if s.fsm = .armed then (if e = .tick then n + 1 else if e = .block then 0 else n) else 0
    decide (n' < 65536 - s.cycles.toNat) && armedBound n' es (sleepMove e s)

/-- The schedule of `k` rounds of a power-down and its wake, then the returning check, as in the trace of R135. -/
def sleepTrace : Nat → List Event
  | 0 => [.block]
  | k + 1 => .block :: .tick :: sleepTrace k

/-! ### Fair infinite runs (R10) -/

/-- An infinite run: `r n` is the state in which the `n`-th event of the infinite schedule `σ` is taken, by `step`. -/
def InfiniteRun (σ : Nat → Event) (r : Nat → State) : Prop :=
  ∀ n, step { r n with sched := [σ n] } = .next (r (n + 1))

/-- Weak fairness of the watchdog (R10, item 1): where a tick stays enabled from some point on, ticks keep coming. -/
def FairTicks (σ : Nat → Event) (r : Nat → State) : Prop :=
  ∀ n, (∀ m, n ≤ m → (r m).tickEnabled = true) → ∃ m, n ≤ m ∧ σ m = .tick

/-- Weak fairness of the block (R10, item 2): a block step that stays enabled is eventually taken. -/
def FairBlock (σ : Nat → Event) (r : Nat → State) : Prop :=
  ∀ n, (∀ m, n ≤ m → (r m).fsm = .armed) → ∃ m, n ≤ m ∧ σ m = .block

/-- The two fairness assumptions of R10, and no others. -/
def WeaklyFair (σ : Nat → Event) (r : Nat → State) : Prop := FairTicks σ r ∧ FairBlock σ r

/-- The ticks among the first `n` events. -/
def ticksBefore (σ : Nat → Event) : Nat → Nat
  | 0 => 0
  | n + 1 => ticksBefore σ n + if σ n = .tick then 1 else 0

/-- A sleep that runs in `r 0` has not returned up to `r n`. -/
def SleepLasts (r : Nat → State) (n : Nat) : Prop := ∀ m, m ≤ n → (r m).fsm ≠ .awake

/-- The `ARMED` bound (R134) of the sleep that runs in `r 0`: every `ARMED` interval `r a .. r b` of it contains fewer than
`65536 - cycles` ticks. -/
def ArmedBoundHolds (σ : Nat → Event) (r : Nat → State) : Prop :=
  ∀ a b, a ≤ b → SleepLasts r b → (∀ m, a ≤ m → m ≤ b → (r m).fsm = .armed) →
    ticksBefore σ (b + 1) - ticksBefore σ a < 65536 - (r 0).cycles.toNat

/-! ### Rules for host programs -/

/-- Frame commands, which the host must not issue during the hand-off of a frame (R165). -/
def isFrameCommand : Instr → Bool
  | .frmStart | .frmByte _ | .fenc | .frmFixed | .frmCrc | .frmRaw _ | .frmDec2 _ | .frmDec _ => true
  | .crcInit | .crcByte _ | .crcVerify _ | .slpInit | .slpSleep _ => false

/-- Commands that may stand between `FRM_START` and `FRM_CRC` of a binary frame (R168): payload appends, and commands that
touch neither the frame nor the CRC. -/
def keepsFrameDiscipline : Instr → Bool
  | .frmByte _ | .frmFixed | .fenc | .crcVerify _ | .slpInit | .slpSleep _ => true
  | .frmStart | .frmCrc | .frmRaw _ | .frmDec2 _ | .frmDec _ | .crcInit | .crcByte _ => false

/-- The payload bytes a command appends (R168). -/
def payloadBytes : Instr → Nat
  | .frmByte _ => 1
  | .frmFixed => 2
  | .crcInit | .crcByte _ | .crcVerify _ | .frmStart | .fenc | .frmCrc | .frmRaw _ | .frmDec2 _ | .frmDec _ | .slpInit
  | .slpSleep _ => 0

/-- Frame discipline (R168) of the commands of one binary frame. -/
def FrameDiscipline (p : List Instr) : Prop :=
  ∃ body, p = .frmStart :: (body ++ [.frmCrc]) ∧ body.all keepsFrameDiscipline = true
    ∧ (body.map payloadBytes).sum ≤ Config.frameMax - 2

/-- Boot (R160): `SLP_INIT` exactly once, and before any `SLP_SLEEP`. -/
def BootOrder (p : List Instr) : Prop :=
  p.count .slpInit = 1 ∧ ∀ h, Instr.slpSleep h ∉ p.takeWhile (· != .slpInit)

/-- `L = NODE_ID_LEN + DEVICE_ID_LEN + 2*NUM_CHANNELS + 1` (R7). -/
def payloadLength (nodeIdLen deviceIdLen numChannels : Nat) : Nat := nodeIdLen + deviceIdLen + 2 * numChannels + 1

/-- The payload of the binary frame (R115). -/
def framePayload (nodeId deviceId : List Byte) (readings : List Word) (auxStatus : Byte) : List Byte :=
  nodeId ++ deviceId ++ readings.flatMap (fun o => [intByte o, fracByte o]) ++ [auxStatus]

/-- The bytes of the textual frame (R116). -/
def textBytes (nodeId deviceId : List Byte) (pair₀ pair₁ : Byte × Byte) (auxStatus : Byte) : List Byte :=
  nodeId ++ tplNumber ++ deviceId.flatMap dec2 ++ tplData
    ++ (dec pair₀.1 ++ [0x2E] ++ dec pair₀.2) ++ tplT1 ++ (dec pair₁.1 ++ [0x2E] ++ dec pair₁.2) ++ tplH
    ++ dec auxStatus ++ tplL

end Sys2Proof.Machine
end

