-- ==== Sys2Proof/Certificates/Slice0/Obligations.lean ====
section
/-! DEFINITION. The statements for the provers. -/

open Sys2Proof Sys2Proof.Machine

/-! ### Command words (spec/30_encoding.md) -/

/-- Decoding the word of any instruction gives the instruction back. -/
def Obligations.DecodeOfEncode : Prop :=
  ∀ i : Instr, decode (encode i) = .ok i

/-- A legal word is the word of the instruction it decodes to: no bit of it is dropped, and no instruction has two words. -/
def Obligations.EncodeOfDecode : Prop :=
  ∀ (w : Word) (i : Instr), decode w = .ok i → encode i = w

/-- R77: a word decodes to the mnemonic of the one row with `word AND mask = match`, it is illegal when no row matches, and no
two rows match one word. -/
def Obligations.DecodeFollowsTable : Prop :=
  ∀ w : Word,
    (∀ m, rowMatches w m = true ↔ ∃ i, decode w = .ok i ∧ i.mnemonic = m)
    ∧ ((∀ m, rowMatches w m = false) ↔ ∃ e, decode w = .error e)
    ∧ (∀ m m', rowMatches w m = true → rowMatches w m' = true → m = m')

/-- R78: the illegal words, and what writing one to `CMD` does. -/
def Obligations.IllegalWords : Prop :=
  ∀ w : Word,
    ((∃ e, decode w = .error e) ↔
      ((w.toNat % 256 = 0x00 ∨ (0x04 ≤ w.toNat % 256 ∧ w.toNat % 256 ≤ 0x0F)
          ∨ (0x18 ≤ w.toNat % 256 ∧ w.toNat % 256 ≤ 0x1F) ∨ 0x22 ≤ w.toNat % 256)
        ∨ w.toNat / 256 % 256 ≠ 0
        ∨ (w.toNat % 256 ∈ [0x01, 0x10, 0x12, 0x13, 0x14, 0x20] ∧ w.toNat / 65536 ≠ 0)
        ∨ (w.toNat % 256 ∈ [0x02, 0x11, 0x15, 0x16, 0x17] ∧ w.toNat / 16777216 ≠ 0)))
    ∧ (∀ e (s : State), decode w = .error e →
        writeCmd w s =
          .next { s with cmdErr := true, errCode := if s.cmdErr = true then s.errCode else .illegal })

/-- Words of spec/95_test_vectors.md section 2.4 and of R82, one for each family at least. -/
def Obligations.SampleWordsDecode : Prop :=
  decode 0x00000001 = .ok .crcInit ∧ decode 0x00010002 = .ok (.crcByte 0x01)
    ∧ decode 0x10210003 = .ok (.crcVerify 0x1021) ∧ decode 0x00000012 = .ok .fenc ∧ decode 0x00000014 = .ok .frmCrc
    ∧ decode 0x00130016 = .ok (.frmDec2 19) ∧ decode 0x00300017 = .ok (.frmDec 0x30)
    ∧ decode 0x00030021 = .ok (.slpSleep 3) ∧ decode 0xFFFF0021 = .ok (.slpSleep 65535)
    ∧ decode 0x00000000 = .error (.unassignedOpcode 0x00) ∧ decode 0x00010001 = .error (.immNonzero 1)
    ∧ decode 0x00000101 = .error (.reservedNonzero 1) ∧ decode 0x01010002 = .error (.immHighNonzero 1)
    ∧ decode 0x00000120 = .error (.reservedNonzero 1) ∧ decode 0x00000022 = .error (.unassignedOpcode 0x22)

/-- R81, R82: a well-formed line assembles to its opcode in bits [7:0] and its operand from bit 16 on, and every other line is
refused. -/
def Obligations.AssembledWord : Prop :=
  ∀ l : CmdLine,
    (l.wellFormed = true →
      ∃ w, assemble l = some w ∧ w.toNat = (maskMatch l.op).2.toNat + 65536 * l.operand.getD 0)
    ∧ (l.wellFormed = false → assemble l = none)

/-- R84: printing and re-assembling a legal word gives back the same word. The number of digits printed is the model's
choice (notes/assumptions/17.md). -/
def Obligations.DisassembleThenAssemble : Prop :=
  ∀ (w : Word) (i : Instr), decode w = .ok i → (parseLine (disassemble w)).bind assemble = some w

/-! ### The CRC function (spec/40_crc.md) -/

/-- R90: masking to 16 bits after every shift, or once after the byte, gives the same result. -/
def Obligations.CrcMaskPlacement : Prop :=
  ∀ (c : Half) (b : Byte), (crc16Update c b).toNat = crc16UpdateWide c.toNat b

/-- R96, items 1 and 3: linearity over sequences of equal length, and zero bytes before a sequence. -/
def Obligations.CrcIsLinear : Prop :=
  (∀ a b : List Byte, a.length = b.length → crc16 (List.zipWith (· ^^^ ·) a b) = crc16 a ^^^ crc16 b)
    ∧ (∀ (k : Nat) (m : List Byte), crc16 (List.replicate k 0 ++ m) = crc16 m)

/-- R96, item 2: flipping any single bit of a payload changes its CRC. -/
def Obligations.CrcDetectsSingleBitFlips : Prop :=
  ∀ (m : List Byte) (k j : Nat) (h : k < m.length), j < 8 → crc16 (m.set k (m[k] ^^^ BitVec.twoPow 8 j)) ≠ crc16 m

/-- R94 with R91: `CRCS payload` and then `CRC_VERIFY checksum` sets `MATCH` exactly when the checksum is `CRC16(payload)`. -/
def Obligations.CrcVerifyDecidesChecksum : Prop :=
  ∀ (payload : List Byte) (checksum : Half) (s : State), s.fsm = .awake →
    execAll (.crcInit :: (payload.map .crcByte ++ [.crcVerify checksum])) s =
      .next { s with crc := crc16 payload, matched := decide (checksum = crc16 payload) }

/-! ### CRC commands -/

/-- R92 -/
def Obligations.CrcInitCommand : Prop :=
  decode 0x00000001 = .ok .crcInit
    ∧ (∀ s : State, s.fsm = .awake → exec .crcInit s = .next { s with crc := 0x0000 })
    ∧ RejectedWhileBusy .crcInit ∧ ReservedBitsIllegal 0x01 0xFFFFFFFF

/-- R93 -/
def Obligations.CrcByteCommand : Prop :=
  ∀ b : Byte,
    decode (0x00000002 ||| b.setWidth 32 <<< 16) = .ok (.crcByte b)
    ∧ (∀ s : State, s.fsm = .awake → exec (.crcByte b) s = .next { s with crc := crc16Update s.crc b })
    ∧ RejectedWhileBusy (.crcByte b) ∧ ReservedBitsIllegal 0x02 0xFF00FFFF

/-- R94 -/
def Obligations.CrcVerifyCommand : Prop :=
  ∀ h : Half,
    decode (0x00000003 ||| h.setWidth 32 <<< 16) = .ok (.crcVerify h)
    ∧ (∀ s : State, s.fsm = .awake → exec (.crcVerify h) s = .next { s with matched := decide (s.crc = h) })
    ∧ RejectedWhileBusy (.crcVerify h) ∧ ReservedBitsIllegal 0x03 0x0000FFFF

/-! ### Frame commands (spec/41_frame.md) -/

/-- R99 -/
def Obligations.FrmStartCommand : Prop :=
  decode 0x00000010 = .ok .frmStart
    ∧ (∀ s : State, s.fsm = .awake → exec .frmStart s = .next { s with frmLen := 0, crc := 0x0000 })
    ∧ RejectedWhileBusy .frmStart ∧ ReservedBitsIllegal 0x10 0xFFFFFFFF

/-- R103 with R98: the byte enters the CRC, also when the buffer is full, and is appended. -/
def Obligations.FrmByteCommand : Prop :=
  ∀ b : Byte,
    decode (0x00000011 ||| b.setWidth 32 <<< 16) = .ok (.frmByte b)
    ∧ (∀ s : State, s.fsm = .awake →
        ∃ t, exec (.frmByte b) s = .next t ∧ Appends [b] { s with crc := crc16Update s.crc b } t)
    ∧ RejectedWhileBusy (.frmByte b) ∧ ReservedBitsIllegal 0x11 0xFF00FFFF

/-- R102: `FENC` writes the pair of `OPND` to `FENC_RES`, sets the sticky range flag, and changes nothing else. -/
def Obligations.FencCommand : Prop :=
  decode 0x00000012 = .ok .fenc
    ∧ (∀ s : State, s.fsm = .awake →
        exec .fenc s =
          .next { s with
            fencInt := intByte s.opnd
            fencFrac := fracByte s.opnd
            fencRng := if readingOutOfRange s.opnd = true then true else s.fencRng })
    ∧ RejectedWhileBusy .fenc ∧ ReservedBitsIllegal 0x12 0xFFFFFFFF

/-- R104: the pair goes to `FENC_RES`, into the CRC and into the frame, the integer byte first; the result equals `FENC` followed by
`FRM_BYTE ib` and `FRM_BYTE fb`. -/
def Obligations.FrmFixedCommand : Prop :=
  decode 0x00000013 = .ok .frmFixed
    ∧ (∀ s : State, s.fsm = .awake →
        ∃ t, exec .frmFixed s = .next t
          ∧ Appends [intByte s.opnd, fracByte s.opnd]
              { s with
                fencInt := intByte s.opnd
                fencFrac := fracByte s.opnd
                fencRng := if readingOutOfRange s.opnd = true then true else s.fencRng
                crc := crc16Update (crc16Update s.crc (intByte s.opnd)) (fracByte s.opnd) } t)
    ∧ (∀ s : State, s.fsm = .awake →
        execAll [.fenc, .frmByte (intByte s.opnd), .frmByte (fracByte s.opnd)] s = exec .frmFixed s)
    ∧ RejectedWhileBusy .frmFixed ∧ ReservedBitsIllegal 0x13 0xFFFFFFFF

/-- R105: in binary mode the checksum, low byte first; in text mode nothing; `crc` is unchanged. -/
def Obligations.FrmCrcCommand : Prop :=
  decode 0x00000014 = .ok .frmCrc
    ∧ (∀ s : State, s.fsm = .awake → s.cfgTxtMode = false →
        ∃ t, exec .frmCrc s = .next t ∧ Appends [s.crc.setWidth 8, (s.crc >>> 8).setWidth 8] s t)
    ∧ (∀ s : State, s.fsm = .awake → s.cfgTxtMode = true → exec .frmCrc s = .next s)
    ∧ RejectedWhileBusy .frmCrc ∧ ReservedBitsIllegal 0x14 0xFFFFFFFF

/-- R106 -/
def Obligations.FrmRawCommand : Prop :=
  ∀ b : Byte,
    decode (0x00000015 ||| b.setWidth 32 <<< 16) = .ok (.frmRaw b)
    ∧ (∀ s : State, s.fsm = .awake → ∃ t, exec (.frmRaw b) s = .next t ∧ Appends [b] s t)
    ∧ RejectedWhileBusy (.frmRaw b) ∧ ReservedBitsIllegal 0x15 0xFF00FFFF

/-- R109 with R107: two digits below 100, three from 100 on, as ASCII. -/
def Obligations.FrmDec2Command : Prop :=
  ∀ b : Byte,
    decode (0x00000016 ||| b.setWidth 32 <<< 16) = .ok (.frmDec2 b)
    ∧ (∀ s : State, s.fsm = .awake →
        ∃ t, exec (.frmDec2 b) s = .next t
          ∧ Appends
              (if b.toNat < 100 then [0x30#8 + b / 10, 0x30#8 + b % 10]
               else [0x30#8 + b / 100, 0x30#8 + b / 10 % 10, 0x30#8 + b % 10]) s t)
    ∧ RejectedWhileBusy (.frmDec2 b) ∧ ReservedBitsIllegal 0x16 0xFF00FFFF

/-- R110 with R108: no leading zeros. -/
def Obligations.FrmDecCommand : Prop :=
  ∀ b : Byte,
    decode (0x00000017 ||| b.setWidth 32 <<< 16) = .ok (.frmDec b)
    ∧ (∀ s : State, s.fsm = .awake →
        ∃ t, exec (.frmDec b) s = .next t
          ∧ Appends
              (if b.toNat < 10 then [0x30#8 + b]
               else if b.toNat < 100 then [0x30#8 + b / 10, 0x30#8 + b % 10]
               else [0x30#8 + b / 100, 0x30#8 + b / 10 % 10, 0x30#8 + b % 10]) s t)
    ∧ RejectedWhileBusy (.frmDec b) ∧ ReservedBitsIllegal 0x17 0xFF00FFFF

/-- R101: the encoder's bytes and range flag are the exact decomposition of the reading `v = o / 65536`: the truncated part and
the hundredths rounded half away from zero, each modulo 256, out of range when a signed part is not in 0..255. -/
def Obligations.EncoderIsExact : Prop :=
  ∀ o : Word,
    let is := truncQ (reading o)
    let fs := roundHalfAwayQ ((reading o - is) * 100)
    intByte o = BitVec.ofInt 8 is ∧ fracByte o = BitVec.ofInt 8 fs
      ∧ (readingOutOfRange o = true ↔ ¬ (0 ≤ is ∧ is ≤ 255 ∧ 0 ≤ fs ∧ fs ≤ 255))

/-- R111: for `OPND` = 0, `FRM_FIXED` and `FRM_BYTE 0` twice both append two zero bytes, with the same CRC; they differ only in
what the first leaves in `FENC_RES`. -/
def Obligations.GhostChannel : Prop :=
  ∀ s : State, s.fsm = .awake → s.opnd = 0 →
    ∃ t u, exec .frmFixed s = .next t ∧ execAll [.frmByte 0, .frmByte 0] s = .next u
      ∧ t = { u with fencInt := 0, fencFrac := 0 }
      ∧ Appends [0x00, 0x00] { s with crc := crc16Update (crc16Update s.crc 0) 0 } u

/-- R112: `FRM_START` alone gives the empty frame, and `FRM_START` and `FRM_CRC` in binary mode the frame of two zero bytes. -/
def Obligations.EmptyFrame : Prop :=
  ∀ s : State, s.fsm = .awake →
    execAll [.frmStart] s = .next { s with frmLen := 0, crc := 0 }
    ∧ (s.cfgTxtMode = false →
        ∃ t, execAll [.frmStart, .frmCrc] s = .next t ∧ Appends [0x00, 0x00] { s with frmLen := 0, crc := 0 } t)

/-- R115 and R118: the host sequence of the binary frame leaves the payload and its checksum, low byte first, in the buffer,
and `frm_len` = `L + 2`, where `L` counts two bytes for every channel. -/
def Obligations.BinaryFrame : Prop :=
  ∀ (s : State) (nodeId deviceId : List Byte) (readings : List Word) (aux : Byte),
    s.fsm = .awake → s.cfgTxtMode = false →
    payloadLength nodeId.length deviceId.length readings.length + 2 ≤ 256 →
    ∃ p t, assembleProgram s.base (binaryFrame nodeId deviceId readings aux) = some p ∧ runAccesses p s = .next t
      ∧ t.frmLen.toNat = payloadLength nodeId.length deviceId.length readings.length + 2
      ∧ t.crc = crc16 (framePayload nodeId deviceId readings aux) ∧ t.frmOvf = s.frmOvf
      ∧ (∀ i, i < t.frmLen.toNat →
          t.frameByte i = (framePayload nodeId deviceId readings aux ++ [t.crc.setWidth 8, (t.crc >>> 8).setWidth 8])[i]?)

/-- R116 and R117: the text has the length of R117, within its bounds, and where it fits the buffer, the host sequence of the
textual frame leaves it there, with its length in `frm_len`, and does not touch the CRC after `FRM_START`. -/
def Obligations.TextFrame : Prop :=
  ∀ (s : State) (nodeId deviceId : List Byte) (pair₀ pair₁ : Byte × Byte) (aux : Byte),
    s.fsm = .awake → deviceId.length = 6 →
    let body := textBytes nodeId deviceId pair₀ pair₁ aux
    body.length = nodeId.length + 55 + (deviceId.flatMap dec2).length + (dec pair₀.1).length + (dec pair₀.2).length
        + (dec pair₁.1).length + (dec pair₁.2).length + (dec aux).length
      ∧ nodeId.length + 72 ≤ body.length ∧ body.length ≤ nodeId.length + 88
      ∧ (body.length ≤ 256 →
          ∃ p t, assembleProgram s.base (textFrame nodeId deviceId pair₀ pair₁ aux) = some p ∧ runAccesses p s = .next t
            ∧ t.frmLen.toNat = body.length ∧ t.crc = 0
            ∧ (∀ i, i < t.frmLen.toNat → t.frameByte i = body[i]?))

/-- R168: under the frame discipline the checksum that `FRM_CRC` appends is `CRC16` over exactly the payload bytes in the
frame. -/
def Obligations.ChecksumCoversFrame : Prop :=
  ∀ (s : State) (body : List Instr),
    s.fsm = .awake → s.cfgTxtMode = false → body.all keepsFrameDiscipline = true → (∀ h, Instr.slpSleep h ∉ body) →
    (body.map payloadBytes).sum ≤ 254 →
    ∃ t payload, execAll (.frmStart :: (body ++ [.frmCrc])) s = .next t
      ∧ payload.length = (body.map payloadBytes).sum ∧ t.frmLen.toNat = payload.length + 2 ∧ t.frmOvf = s.frmOvf
      ∧ (∀ i, i < t.frmLen.toNat →
          t.frameByte i = (payload ++ [(crc16 payload).setWidth 8, (crc16 payload >>> 8).setWidth 8])[i]?)

/-! ### Sleep commands (spec/42_sleep.md) -/

/-- R124 -/
def Obligations.SlpInitCommand : Prop :=
  decode 0x00000020 = .ok .slpInit
    ∧ (∀ s : State, s.fsm = .awake → s.init = false →
        exec .slpInit s = .next { s with wdtIe := true, adcEn := false, pdEn := true, init := true })
    ∧ (∀ s : State, s.fsm = .awake → s.init = true →
        exec .slpInit s =
          .next { s with cmdErr := true, errCode := if s.cmdErr = true then s.errCode else .reinit })
    ∧ RejectedWhileBusy .slpInit ∧ ReservedBitsIllegal 0x20 0xFFFFFFFF

/-- R126 and R127 -/
def Obligations.SlpSleepCommand : Prop :=
  ∀ h : Half,
    decode (0x00000021 ||| h.setWidth 32 <<< 16) = .ok (.slpSleep h)
    ∧ (∀ s : State, s.fsm = .awake → s.init = false →
        exec (.slpSleep h) s =
          .next { s with cmdErr := true, errCode := if s.cmdErr = true then s.errCode else .notInit })
    ∧ (∀ s : State, s.fsm = .awake → s.init = true → s.cfgFailsafeEn = true → s.vlow = true →
        exec (.slpSleep h) s =
          .next { s with cycles := h, irqDis := true, bodOff := true, pdReq := true, fsm := .forcedSleep })
    ∧ (∀ s : State, s.fsm = .awake → s.init = true → (s.cfgFailsafeEn = false ∨ s.vlow = false) →
        exec (.slpSleep h) s =
          .next { s with
            cycles := h, ticks := 0, adcEn := false, ainFloat := true, fsm := .armed
            history := .wdtRestart :: s.history })
    ∧ RejectedWhileBusy (.slpSleep h) ∧ ReservedBitsIllegal 0x21 0x0000FFFF

/-! ### The register window (spec/10_state.md, spec/20_memory.md) -/

/-- R23, R27 to R30, R34: what a 32-bit read of each register, and of a reserved offset, returns; nothing else changes. -/
def Obligations.RegisterReads : Prop :=
  ∀ s : State,
    busAccess (.read (s.base + 0x000) 4) s = .next { s with rdata := 0 }
    ∧ busAccess (.read (s.base + 0x00C) 4) s = .next { s with rdata := 0#16 ++ s.crc }
    ∧ busAccess (.read (s.base + 0x010) 4) s = .next { s with rdata := 0#16 ++ s.frmLen }
    ∧ busAccess (.read (s.base + 0x014) 4) s = .next { s with rdata := 0#16 ++ (s.fencFrac ++ s.fencInt) }
    ∧ busAccess (.read (s.base + 0x018) 4) s = .next { s with rdata := 0#16 ++ s.ticks }
    ∧ busAccess (.read (s.base + 0x01C) 4) s = .next { s with rdata := 0#16 ++ s.cycles }
    ∧ (∀ off, 0x028 ≤ off → off ≤ 0x0FC → off % 4 = 0 →
        busAccess (.read (s.base + off) 4) s = .next { s with rdata := 0 })

/-- R25 and R26: the fields of `STATUS` as read, its reset value, and the write that clears. -/
def Obligations.StatusRegister : Prop :=
  (∀ s : State, ∃ w : Word, busAccess (.read (s.base + 0x008) 4) s = .next { s with rdata := w }
    ∧ w[0] = decide (s.fsm ≠ .awake) ∧ w[1] = s.init ∧ w[2] = s.matched ∧ w[3] = s.cmdErr ∧ w[4] = s.frmOvf
    ∧ w[5] = s.fencRng ∧ w.extractLsb' 6 2 = 0
    ∧ (w.extractLsb' 8 2).toNat =
        (match s.fsm with | .awake => 0 | .armed => 1 | .sleeping => 2 | .forcedSleep => 3)
    ∧ w.extractLsb' 10 2 = 0
    ∧ (w.extractLsb' 12 4).toNat =
        (match s.errCode with | .none => 0 | .illegal => 1 | .busy => 2 | .notInit => 3 | .reinit => 4)
    ∧ w.extractLsb' 16 16 = 0)
    ∧ (∃ s, busAccess (.read (State.reset.base + 0x008) 4) State.reset = .next s ∧ s.rdata = 0)
    ∧ (∀ (s : State) (w : Word),
        busAccess (.write (s.base + 0x008) 4 w) s =
          .next { s with
            cmdErr := if w[3] = true then false else s.cmdErr
            errCode := if w[3] = true then .none else s.errCode
            frmOvf := if w[4] = true then false else s.frmOvf
            fencRng := if w[5] = true then false else s.fencRng })

/-- R32: `OUT` mirrors the seven output levels, ignores writes and reads 4 at reset. -/
def Obligations.OutRegister : Prop :=
  (∀ s : State, ∃ w : Word, busAccess (.read (s.base + 0x024) 4) s = .next { s with rdata := w }
    ∧ w[0] = s.wdtIe ∧ w[1] = s.pdEn ∧ w[2] = s.adcEn ∧ w[3] = s.ainFloat ∧ w[4] = s.pdReq ∧ w[5] = s.bodOff
    ∧ w[6] = s.irqDis ∧ w.extractLsb' 7 25 = 0)
    ∧ (∀ (s : State) (w : Word), busAccess (.write (s.base + 0x024) 4 w) s = .next s)
    ∧ (∃ s, busAccess (.read (State.reset.base + 0x024) 4) State.reset = .next s ∧ s.rdata = 0x00000004)

/-- R24 whole, and the bits of `CFG` (R31): what is written is read back, and nothing else changes. -/
def Obligations.OperandAndConfigRegisters : Prop :=
  ∀ (s : State) (w : Word),
    busAccess (.write (s.base + 0x004) 4 w) s = .next { s with opnd := w }
    ∧ busAccess (.read (s.base + 0x004) 4) s = .next { s with rdata := s.opnd } ∧ State.reset.opnd = 0
    ∧ busAccess (.write (s.base + 0x020) 4 w) s = .next { s with cfgFailsafeEn := w[0], cfgTxtMode := w[1] }
    ∧ (∃ v : Word, busAccess (.read (s.base + 0x020) 4) s = .next { s with rdata := v }
        ∧ v[0] = s.cfgFailsafeEn ∧ v[1] = s.cfgTxtMode ∧ v.extractLsb' 2 30 = 0)

/-- R54 to R56, R62 and R142: an access outside the window is not the block's; inside, it is answered exactly where its width
and alignment are accepted, and is a bus error, with the faulting address, everywhere else. That an access outside is made with no
effect, on the word last read among it, is the model's reading (notes/assumptions/5.md, DEDUCED). -/
def Obligations.WindowDecoding : Prop :=
  ∀ (s : State) (addr width : Nat) (w : Word) (a : Access), a = .read addr width ∨ a = .write addr width w →
    ((addr < s.base ∨ s.base + 0x200 ≤ addr) → busAccess a s = .next s)
    ∧ (s.base ≤ addr → addr < s.base + 0x100 →
        (busAccess a s = .fault (.busError addr) ↔ ¬ (width = 4 ∧ (addr - s.base) % 4 = 0)))
    ∧ (s.base + 0x100 ≤ addr → addr < s.base + 0x200 →
        (busAccess a s = .fault (.busError addr) ↔
          ¬ ((width = 1 ∨ width = 2 ∨ width = 4) ∧ (addr - s.base) % width = 0)))
    ∧ (busAccess a s = .fault (.busError addr) ∨ ∃ t, busAccess a s = .next t)

/-- R61: reads change nothing of the block's, and draw only where a byte was never written; writes act only at `CMD`, `OPND`,
`STATUS` and `CFG`. -/
def Obligations.WindowSideEffects : Prop :=
  (∀ (s t : State) (addr width : Nat), busAccess (.read addr width) s = .next t →
    ∃ d v, t = { s with draws := d, rdata := v }
      ∧ ((∀ i, s.base + 0x100 + i < addr + width → addr ≤ s.base + 0x100 + i → (s.frameByte i).isSome = true) →
          d = s.draws))
    ∧ (∀ (s t : State) (addr width : Nat) (w : Word), busAccess (.write addr width w) s = .next t →
        addr ≠ s.base + 0x000 → addr ≠ s.base + 0x004 → addr ≠ s.base + 0x008 → addr ≠ s.base + 0x020 → t = s)

/-- R56 to R58: a naturally aligned read of written frame bytes returns them little-endian, whatever the width; bits beyond the
width are 0 (notes/assumptions/8.md). -/
def Obligations.FrameReadsLittleEndian : Prop :=
  ∀ (s : State) (i n : Nat) (f : Nat → Byte),
    (n = 1 ∨ n = 2 ∨ n = 4) → i % n = 0 → i + n ≤ 256 → (∀ k, k < n → s.frameByte (i + k) = some (f k)) →
    ∃ v : Word, busAccess (.read (s.base + 0x100 + i) n) s = .next { s with rdata := v }
      ∧ (∀ k, k < n → v.extractLsb' (8 * k) 8 = f k) ∧ (∀ j, 8 * n ≤ j → v.getLsbD j = false)

/-- R33 and R57: a byte that no append has written since reset reads as a draw. The draw is the model's free value
(notes/assumptions/7.md); nothing here depends on what it is. The zero bits above the byte are the model's choice
(notes/assumptions/8.md). -/
def Obligations.UnwrittenByteIsDraw : Prop :=
  ∀ (s : State) (i : Nat), i < 256 → s.frameWrittenAt i = false →
    busAccess (.read (s.base + 0x100 + i) 1) s =
      .next { s with rdata := (Config.freeByte s.draws).setWidth 32, draws := s.draws + 1 }

/-! ### Reset (spec/70_reset_and_hazards.md) -/

/-- R39 with R157: asserting `rst_n`, and releasing it, gives every state element its value of R39; `frame[]` keeps its
contents, and none of them is readable as a value (R158). That the host's remaining accesses and the model's own fields survive
is the model's choice (notes/assumptions/7.md, 8.md, 10.md, 11.md and 13.md). -/
def Obligations.ResetInput : Prop :=
  ∀ (s : State) (rest : List Event) (level : Bool),
    s.sched = .rstN level :: rest → (level = false ∨ s.rstN = false) →
    ∃ t, step s = .next t ∧ t =
      { crc := 0, frame := s.frame, frameWritten := 0, frmLen := 0, opnd := 0, fencInt := 0, fencFrac := 0
        matched := false, frmOvf := false, fencRng := false, cmdErr := false, errCode := .none
        cfgFailsafeEn := true, cfgTxtMode := false, init := false, fsm := .awake, ticks := 0, cycles := 0
        wdtIe := false, pdEn := false, adcEn := true, ainFloat := false, pdReq := false, bodOff := false
        irqDis := false, base := s.base, vlow := s.vlow, rstN := level, hostOps := s.hostOps, sched := rest
        draws := s.draws, rdata := s.rdata, history := s.history }
      ∧ (∀ i, t.frameByte i = none)

/-- R39: what the machine right after reset holds, and what `STATUS`, `OUT` and `CFG` read there. No frame byte has a value. -/
def Obligations.ResetStateValues : Prop :=
  let s := State.reset
  s.crc = 0 ∧ (∀ i, s.frameByte i = none) ∧ s.frameWritten = 0 ∧ s.frmLen = 0 ∧ s.opnd = 0 ∧ s.fencInt = 0 ∧ s.fencFrac = 0 ∧ s.matched = false
    ∧ s.frmOvf = false ∧ s.fencRng = false ∧ s.cmdErr = false ∧ s.errCode = .none ∧ s.cfgFailsafeEn = true
    ∧ s.cfgTxtMode = false ∧ s.init = false ∧ s.fsm = .awake ∧ s.ticks = 0 ∧ s.cycles = 0 ∧ s.wdtIe = false
    ∧ s.pdEn = false ∧ s.adcEn = true ∧ s.ainFloat = false ∧ s.pdReq = false ∧ s.bodOff = false ∧ s.irqDis = false
    ∧ readReg .status s = 0x00000000 ∧ readReg .out s = 0x00000004 ∧ readReg .cfg s = 0x00000001

/-- R157: while `rst_n` is low, whatever agent moves, every state element is at its reset value afterwards. That an access made
then is still answered is the model's choice (notes/assumptions/10.md). -/
def Obligations.ResetHoldsTheState : Prop :=
  ∀ s t : State, s.rstN = false → s.sched ≠ [] → step s = .next t → resetBlock t = t

/-! ### The step -/

/-- R9, R60 and R63: a step whose event is the host's move, with the host not held, performs the host's next access, whatever it
is, and one whose event is a second master's access (log 12) performs that access; so a 32-bit write of a legal word to `CMD` runs
`exec` of the instruction the word decodes to, and one of an illegal word is recorded. The state is the one from which the schedule
entry, and the host's access, are taken. -/
def Obligations.StepRunsDecodedCommand : Prop :=
  ∀ (s : State) (rest : List Event), s.rstN = true →
    (∀ a ops, s.fsm = .awake → s.sched = .host :: rest → s.hostOps = a :: ops →
        step s = busAccess a { s with sched := rest, hostOps := ops })
    ∧ (∀ a, s.sched = .second a :: rest → step s = busAccess a { s with sched := rest })
    ∧ (∀ (w : Word) (i : Instr), decode w = .ok i →
        (∀ ops, s.fsm = .awake → s.sched = .host :: rest → s.hostOps = .write s.base 4 w :: ops →
            step s = exec i { s with sched := rest, hostOps := ops })
        ∧ (s.sched = .second (.write s.base 4 w) :: rest → step s = exec i { s with sched := rest }))
    ∧ (∀ (w : Word) (e : DecodeError), decode w = .error e →
        (∀ ops, s.fsm = .awake → s.sched = .host :: rest → s.hostOps = .write s.base 4 w :: ops →
            step s = .next (recorded .illegal { s with sched := rest, hostOps := ops }))
        ∧ (s.sched = .second (.write s.base 4 w) :: rest →
            step s = .next (recorded .illegal { s with sched := rest })))

/-- A command placed by `withFetchWord` is what the next step runs, in every state. -/
def Obligations.StepRunsFetchWord : Prop :=
  ∀ (s : State) (nbits w : Nat) (i : Instr), decodeTableWord nbits w = some i →
    step (s.withFetchWord nbits w) = exec i { s with rstN := true }

/-- R145 and R140: while `BUSY` = 1 the host has no step, and every legal command a second master writes (notes/assumptions/12.md) is
rejected with `ERR_BUSY`, an illegal one with `ERR_ILLEGAL` (R147). -/
def Obligations.HostIsHeld : Prop :=
  ∀ (s : State) (rest : List Event), s.rstN = true → s.fsm ≠ .awake →
    (s.sched = .host :: rest → step s = .next { s with sched := rest })
    ∧ (∀ w : Word, s.sched = .second (.write s.base 4 w) :: rest →
        step s = .next { s with
          sched := rest
          cmdErr := true
          errCode := if s.cmdErr = true then s.errCode
            else match decode w with | .error _ => .illegal | .ok _ => .busy })

/-- R63: a step takes exactly one schedule entry, and the host's accesses leave their list one at a time, from the front, only on
the host's own move. The moves that make no access: `vlow` takes the level driven and nothing else changes (R36), unless `rst_n` is
low and holds the state (R157); driving a high `rst_n` high changes nothing; neither does a host move with no access left, nor
an empty schedule outside `FORCED_SLEEP` (the model's choices, notes/assumptions/2.md, 3.md, 9.md and 10.md). -/
def Obligations.AccessesInOrder : Prop :=
  (∀ s t : State, step s = .next t →
    t.sched = s.sched.tail ∧ t.base = s.base
      ∧ (t.hostOps = s.hostOps
          ∨ (s.fsm = .awake ∧ s.sched.head? = some .host ∧ ∃ a, s.hostOps = a :: t.hostOps)))
  ∧ (∀ (s : State) (rest : List Event),
      (∀ level, s.sched = .vlow level :: rest →
          step s = .next (if s.rstN = true then { s with sched := rest, vlow := level }
            else resetBlock { s with sched := rest, vlow := level }))
      ∧ (s.sched = .rstN true :: rest → s.rstN = true → step s = .next { s with sched := rest })
      ∧ (s.sched = .host :: rest → s.hostOps = [] → s.rstN = true → step s = .next { s with sched := rest }))
  ∧ (∀ s : State, s.sched = [] → s.fsm ≠ .forcedSleep → step s = .next s)

/-! ### The sleep unit's steps (spec/42_sleep.md) -/

/-- R121 and R122: an enabled tick counts modulo 2^16 and wakes a sleeping unit; any other tick is lost. -/
def Obligations.TickStep : Prop :=
  ∀ (s : State) (rest : List Event), s.rstN = true → s.sched = .tick :: rest →
    (s.init = true → s.irqDis = false → s.fsm ≠ .sleeping →
        step s = .next { s with sched := rest, ticks := BitVec.ofNat 16 ((s.ticks.toNat + 1) % 2 ^ 16) })
    ∧ (s.init = true → s.irqDis = false → s.fsm = .sleeping →
        step s = .next { s with
          sched := rest, ticks := BitVec.ofNat 16 ((s.ticks.toNat + 1) % 2 ^ 16)
          pdReq := false, bodOff := false, fsm := .armed })
    ∧ ((s.init = false ∨ s.irqDis = true) → step s = .next { s with sched := rest })

/-- R128, R129 and R131: the block steps exactly in `ARMED`, and the check and the power-down entry are one step. -/
def Obligations.BlockStep : Prop :=
  ∀ (s : State) (rest : List Event), s.rstN = true → s.sched = .block :: rest →
    (s.fsm = .armed → s.cycles.toNat ≤ s.ticks.toNat →
        step s = .next { s with sched := rest, adcEn := true, fsm := .awake })
    ∧ (s.fsm = .armed → s.ticks.toNat < s.cycles.toNat →
        step s = .next { s with sched := rest, bodOff := true, pdReq := true, fsm := .sleeping })
    ∧ (s.fsm ≠ .armed → step s = .next { s with sched := rest })

/-- R120: the complete transition relation of `fsm`; no other transition exists, and a tick outside `SLEEPING` changes only
`ticks`. -/
def Obligations.FsmTransitions : Prop :=
  ∀ s t : State, s.rstN = true → SleepInv s → step s = .next t →
    (∀ h, nextAccess s = some (cmdAccess s.base (.slpSleep h)) → s.fsm = .awake → s.init = true →
        t.fsm = if s.cfgFailsafeEn = true ∧ s.vlow = true then .forcedSleep else .armed)
    ∧ (s.sched.head? = some .block → s.fsm = .armed →
        t.fsm = if s.cycles.toNat ≤ s.ticks.toNat then .awake else .sleeping)
    ∧ (s.sched.head? = some .tick → s.fsm = .sleeping → t.fsm = .armed)
    ∧ (s.sched.head? = some .tick → s.fsm ≠ .sleeping → { t with ticks := s.ticks, sched := s.sched } = s)
    ∧ (s.sched.head? = some (.rstN false) → t.fsm = .awake)
    ∧ (t.fsm ≠ s.fsm →
        (s.fsm = .awake ∧ s.init = true ∧ ∃ h, nextAccess s = some (cmdAccess s.base (.slpSleep h)))
        ∨ (s.fsm = .armed ∧ s.sched.head? = some .block)
        ∨ (s.fsm = .sleeping ∧ s.sched.head? = some .tick)
        ∨ s.sched.head? = some (.rstN false))

/-- R164 with R157 and R39: nothing but an enabled tick, the normal path of `SLP_SLEEP` and reset changes `ticks`. -/
def Obligations.TicksHaveOneWriter : Prop :=
  ∀ s t : State, s.rstN = true → step s = .next t → t.ticks ≠ s.ticks →
    (s.sched.head? = some .tick ∧ s.init = true ∧ s.irqDis = false ∧ t.ticks = s.ticks + 1)
    ∨ (t.ticks = 0 ∧ s.fsm = .awake ∧ s.init = true ∧ t.fsm = .armed
        ∧ ∃ h, nextAccess s = some (cmdAccess s.base (.slpSleep h)))
    ∨ (t.ticks = 0 ∧ s.sched.head? = some (.rstN false))

/-- R155 and R38: the sticky flags and `init` are cleared by nothing but a write of 1 to their `STATUS` bit, or reset. -/
def Obligations.StickyFlags : Prop :=
  ∀ s t : State, s.rstN = true → step s = .next t → s.sched.head? ≠ some (.rstN false) →
    (s.init = true → t.init = true)
    ∧ (s.cmdErr = true → (t.cmdErr = true ∧ t.errCode = s.errCode)
        ∨ ∃ w : Word, w[3] = true ∧ nextAccess s = some (.write (s.base + 0x008) 4 w))
    ∧ (s.frmOvf = true → t.frmOvf = true
        ∨ ∃ w : Word, w[4] = true ∧ nextAccess s = some (.write (s.base + 0x008) 4 w))
    ∧ (s.fencRng = true → t.fencRng = true
        ∨ ∃ w : Word, w[5] = true ∧ nextAccess s = some (.write (s.base + 0x008) 4 w))

/-- R2, R38, R95 and R114: a command touches its own unit, the shared `crc` and the error record; no command touches `OPND`,
`CFG`, an input, or what is still to come. -/
def Obligations.UnitsKeepApart : Prop :=
  ∀ (i : Instr) (s : State), ∃ t, exec i s = .next t
    ∧ (isFrameCommand i = true →
        { t with
          crc := s.crc, frame := s.frame, frameWritten := s.frameWritten, frmLen := s.frmLen, frmOvf := s.frmOvf
          fencInt := s.fencInt, fencFrac := s.fencFrac, fencRng := s.fencRng, cmdErr := s.cmdErr
          errCode := s.errCode } = s)
    ∧ ((i = .crcInit ∨ (∃ b, i = .crcByte b) ∨ ∃ h, i = .crcVerify h) →
        { t with crc := s.crc, matched := s.matched, cmdErr := s.cmdErr, errCode := s.errCode } = s)
    ∧ ((i = .slpInit ∨ ∃ h, i = .slpSleep h) →
        { t with
          init := s.init, fsm := s.fsm, ticks := s.ticks, cycles := s.cycles, wdtIe := s.wdtIe, pdEn := s.pdEn
          adcEn := s.adcEn, ainFloat := s.ainFloat, pdReq := s.pdReq, bodOff := s.bodOff, irqDis := s.irqDis
          history := s.history, cmdErr := s.cmdErr, errCode := s.errCode } = s)

/-! ### Whole runs -/

/-- R132, R136 and R159: once in `FORCED_SLEEP`, no run without reset leaves it, no host access is made and no tick is counted;
when nothing is left to happen, the outcome is the halt, not a normal end (R19; notes/assumptions/3.md, DEDUCED). -/
def Obligations.ForcedSleepIsTerminal : Prop :=
  ∀ (n : Nat) (s : State), s.fsm = .forcedSleep → s.irqDis = true → s.rstN = true → NoReset s.sched →
    (∀ t, Sys2Proof.core.run n s = .next t →
      t.fsm = .forcedSleep ∧ t.hostOps = s.hostOps ∧ t.ticks = s.ticks ∧ t.cycles = s.cycles)
    ∧ (s.sched = [] → step s = .fault .halted)

/-- R134, first part: from the acceptance of `SLP_SLEEP h` on the normal path (`ARMED`, `ticks` = 0, `cycles` = h), no run
without reset is back in `AWAKE` before the `h`-th tick. -/
def Obligations.SleepNeverReturnsEarly : Prop :=
  ∀ (n : Nat) (s t : State), s.fsm = .armed → s.ticks = 0 → s.rstN = true → NoReset s.sched →
    Sys2Proof.core.run n s = .next t → t.fsm = .awake → s.cycles.toNat ≤ (s.sched.take n).count .tick

/-- R134, second part: under the `ARMED` bound, the first block step after the `h`-th tick finds the sleep returned or returns it.
The schedule holds moves of the watchdog and the block, in any order. -/
def Obligations.SleepReturnsUnderArmedBound : Prop :=
  ∀ (s : State) (moves rest : List Event), s.fsm = .armed → s.ticks = 0 → s.init = true → s.irqDis = false →
    s.rstN = true → s.sched = moves ++ .block :: rest → (∀ e, e ∈ moves → e = .tick ∨ e = .block) →
    armedBound 0 moves s = true → s.cycles.toNat ≤ moves.count .tick →
    ∃ t, Sys2Proof.core.run (moves.length + 1) s = .next t ∧ t.fsm = .awake

/-- R135 and R133, for any number of cycles: with no tick in `ARMED`, the sleep of `h` cycles goes through `h` rounds of
power-down and wake and returns with `ticks` = `h`. -/
def Obligations.SleepTraceReturns : Prop :=
  ∀ (s : State) (rest : List Event), s.fsm = .armed → s.ticks = 0 → s.init = true → s.irqDis = false → s.rstN = true →
    s.pdReq = false → s.bodOff = false → s.sched = sleepTrace s.cycles.toNat ++ rest →
    Sys2Proof.core.run (2 * s.cycles.toNat + 1) s =
      .next { s with sched := rest, ticks := s.cycles, adcEn := true, fsm := .awake }

/-! ### Invariants -/

/-- R28, R57 and R98: every step keeps the frame buffer's form. -/
def Obligations.StepKeepsFrameInv : Prop :=
  ∀ s t : State, FrameInv s → step s = .next t → FrameInv t

/-- R35, R153 and R172: every step keeps the sleep unit's signals in line with its state. -/
def Obligations.StepKeepsSleepInv : Prop :=
  ∀ s t : State, SleepInv s → step s = .next t → SleepInv t

/-- R137, R157 and R53: every step keeps the error record, the hold of reset and the alignment of `BASE`. -/
def Obligations.StepKeepsRecordInv : Prop :=
  ∀ s t : State, step s = .next t →
    (ErrorInv s → ErrorInv t) ∧ (ResetInv s → ResetInv t) ∧ (BaseInv s → BaseInv t)

/-- The invariants hold right after reset. -/
def Obligations.InvariantsHoldAtReset : Prop :=
  FrameInv State.reset ∧ SleepInv State.reset ∧ ErrorInv State.reset ∧ ResetInv State.reset ∧ BaseInv State.reset

/-! ### Fair runs (R10) -/

/-- R134 with the fairness of R10: under the `ARMED` bound, a sleep accepted on the normal path (`ARMED`, `ticks` = 0, `cycles` = h)
returns in every weakly fair infinite run without reset, whatever else happens in it: at the first block step after the `h`-th
tick, and with `ticks >= cycles`. -/
def Obligations.SleepReturnsUnderFairness : Prop :=
  ∀ (σ : Nat → Event) (r : Nat → State),
    InfiniteRun σ r → WeaklyFair σ r → ArmedBoundHolds σ r → (∀ n level, σ n ≠ .rstN level) →
    (r 0).fsm = .armed → (r 0).ticks = 0 → (r 0).init = true → (r 0).irqDis = false → (r 0).rstN = true →
    ∃ n, SleepLasts r n ∧ σ n = .block ∧ (r (n + 1)).fsm = .awake
      ∧ (r (n + 1)).cycles = (r 0).cycles ∧ (r (n + 1)).cycles.toNat ≤ (r (n + 1)).ticks.toNat
      ∧ (r 0).cycles.toNat ≤ ticksBefore σ n
      ∧ (∀ m, m < n → σ m = .block → ticksBefore σ m < (r 0).cycles.toNat)
end

