-- ==== Sys2Proof/Laws/State.lean ====
section
/-! SUPPORT. What each shared operation leaves unchanged, one lemma per field, and the values that `resetBlock` and the
plain updates write. -/

namespace Sys2Proof.Machine

/-- A field that one append keeps is kept by any number of them. -/
theorem appendAll_keeps {α : Type} (f : State → α) (h : ∀ b s, f (append b s) = f s) (bs : List Byte) (s : State) :
    f (appendAll bs s) = f s := by
  induction bs generalizing s with
  | nil => rfl
  | cons b bs ih => exact (ih (append b s)).trans (h b s)

/-! ### `cmdError` -/

@[simp] theorem cmdError_crc (c : ErrCode) (s : State) : (cmdError c s).crc = s.crc := rfl
@[simp] theorem cmdError_frame (c : ErrCode) (s : State) : (cmdError c s).frame = s.frame := rfl
@[simp] theorem cmdError_frameWritten (c : ErrCode) (s : State) : (cmdError c s).frameWritten = s.frameWritten := rfl
@[simp] theorem cmdError_frmLen (c : ErrCode) (s : State) : (cmdError c s).frmLen = s.frmLen := rfl
@[simp] theorem cmdError_opnd (c : ErrCode) (s : State) : (cmdError c s).opnd = s.opnd := rfl
@[simp] theorem cmdError_fencInt (c : ErrCode) (s : State) : (cmdError c s).fencInt = s.fencInt := rfl
@[simp] theorem cmdError_fencFrac (c : ErrCode) (s : State) : (cmdError c s).fencFrac = s.fencFrac := rfl
@[simp] theorem cmdError_matched (c : ErrCode) (s : State) : (cmdError c s).matched = s.matched := rfl
@[simp] theorem cmdError_frmOvf (c : ErrCode) (s : State) : (cmdError c s).frmOvf = s.frmOvf := rfl
@[simp] theorem cmdError_fencRng (c : ErrCode) (s : State) : (cmdError c s).fencRng = s.fencRng := rfl
@[simp] theorem cmdError_cfgFailsafeEn (c : ErrCode) (s : State) : (cmdError c s).cfgFailsafeEn = s.cfgFailsafeEn := rfl
@[simp] theorem cmdError_cfgTxtMode (c : ErrCode) (s : State) : (cmdError c s).cfgTxtMode = s.cfgTxtMode := rfl
@[simp] theorem cmdError_init (c : ErrCode) (s : State) : (cmdError c s).init = s.init := rfl
@[simp] theorem cmdError_fsm (c : ErrCode) (s : State) : (cmdError c s).fsm = s.fsm := rfl
@[simp] theorem cmdError_ticks (c : ErrCode) (s : State) : (cmdError c s).ticks = s.ticks := rfl
@[simp] theorem cmdError_cycles (c : ErrCode) (s : State) : (cmdError c s).cycles = s.cycles := rfl
@[simp] theorem cmdError_wdtIe (c : ErrCode) (s : State) : (cmdError c s).wdtIe = s.wdtIe := rfl
@[simp] theorem cmdError_pdEn (c : ErrCode) (s : State) : (cmdError c s).pdEn = s.pdEn := rfl
@[simp] theorem cmdError_adcEn (c : ErrCode) (s : State) : (cmdError c s).adcEn = s.adcEn := rfl
@[simp] theorem cmdError_ainFloat (c : ErrCode) (s : State) : (cmdError c s).ainFloat = s.ainFloat := rfl
@[simp] theorem cmdError_pdReq (c : ErrCode) (s : State) : (cmdError c s).pdReq = s.pdReq := rfl
@[simp] theorem cmdError_bodOff (c : ErrCode) (s : State) : (cmdError c s).bodOff = s.bodOff := rfl
@[simp] theorem cmdError_irqDis (c : ErrCode) (s : State) : (cmdError c s).irqDis = s.irqDis := rfl
@[simp] theorem cmdError_base (c : ErrCode) (s : State) : (cmdError c s).base = s.base := rfl
@[simp] theorem cmdError_vlow (c : ErrCode) (s : State) : (cmdError c s).vlow = s.vlow := rfl
@[simp] theorem cmdError_rstN (c : ErrCode) (s : State) : (cmdError c s).rstN = s.rstN := rfl
@[simp] theorem cmdError_hostOps (c : ErrCode) (s : State) : (cmdError c s).hostOps = s.hostOps := rfl
@[simp] theorem cmdError_sched (c : ErrCode) (s : State) : (cmdError c s).sched = s.sched := rfl
@[simp] theorem cmdError_draws (c : ErrCode) (s : State) : (cmdError c s).draws = s.draws := rfl
@[simp] theorem cmdError_rdata (c : ErrCode) (s : State) : (cmdError c s).rdata = s.rdata := rfl
@[simp] theorem cmdError_history (c : ErrCode) (s : State) : (cmdError c s).history = s.history := rfl

/-! ### `feedCrc` -/

@[simp] theorem feedCrc_frame (b : Byte) (s : State) : (feedCrc b s).frame = s.frame := rfl
@[simp] theorem feedCrc_frameWritten (b : Byte) (s : State) : (feedCrc b s).frameWritten = s.frameWritten := rfl
@[simp] theorem feedCrc_frmLen (b : Byte) (s : State) : (feedCrc b s).frmLen = s.frmLen := rfl
@[simp] theorem feedCrc_opnd (b : Byte) (s : State) : (feedCrc b s).opnd = s.opnd := rfl
@[simp] theorem feedCrc_fencInt (b : Byte) (s : State) : (feedCrc b s).fencInt = s.fencInt := rfl
@[simp] theorem feedCrc_fencFrac (b : Byte) (s : State) : (feedCrc b s).fencFrac = s.fencFrac := rfl
@[simp] theorem feedCrc_matched (b : Byte) (s : State) : (feedCrc b s).matched = s.matched := rfl
@[simp] theorem feedCrc_frmOvf (b : Byte) (s : State) : (feedCrc b s).frmOvf = s.frmOvf := rfl
@[simp] theorem feedCrc_fencRng (b : Byte) (s : State) : (feedCrc b s).fencRng = s.fencRng := rfl
@[simp] theorem feedCrc_cmdErr (b : Byte) (s : State) : (feedCrc b s).cmdErr = s.cmdErr := rfl
@[simp] theorem feedCrc_errCode (b : Byte) (s : State) : (feedCrc b s).errCode = s.errCode := rfl
@[simp] theorem feedCrc_cfgFailsafeEn (b : Byte) (s : State) : (feedCrc b s).cfgFailsafeEn = s.cfgFailsafeEn := rfl
@[simp] theorem feedCrc_cfgTxtMode (b : Byte) (s : State) : (feedCrc b s).cfgTxtMode = s.cfgTxtMode := rfl
@[simp] theorem feedCrc_init (b : Byte) (s : State) : (feedCrc b s).init = s.init := rfl
@[simp] theorem feedCrc_fsm (b : Byte) (s : State) : (feedCrc b s).fsm = s.fsm := rfl
@[simp] theorem feedCrc_ticks (b : Byte) (s : State) : (feedCrc b s).ticks = s.ticks := rfl
@[simp] theorem feedCrc_cycles (b : Byte) (s : State) : (feedCrc b s).cycles = s.cycles := rfl
@[simp] theorem feedCrc_wdtIe (b : Byte) (s : State) : (feedCrc b s).wdtIe = s.wdtIe := rfl
@[simp] theorem feedCrc_pdEn (b : Byte) (s : State) : (feedCrc b s).pdEn = s.pdEn := rfl
@[simp] theorem feedCrc_adcEn (b : Byte) (s : State) : (feedCrc b s).adcEn = s.adcEn := rfl
@[simp] theorem feedCrc_ainFloat (b : Byte) (s : State) : (feedCrc b s).ainFloat = s.ainFloat := rfl
@[simp] theorem feedCrc_pdReq (b : Byte) (s : State) : (feedCrc b s).pdReq = s.pdReq := rfl
@[simp] theorem feedCrc_bodOff (b : Byte) (s : State) : (feedCrc b s).bodOff = s.bodOff := rfl
@[simp] theorem feedCrc_irqDis (b : Byte) (s : State) : (feedCrc b s).irqDis = s.irqDis := rfl
@[simp] theorem feedCrc_base (b : Byte) (s : State) : (feedCrc b s).base = s.base := rfl
@[simp] theorem feedCrc_vlow (b : Byte) (s : State) : (feedCrc b s).vlow = s.vlow := rfl
@[simp] theorem feedCrc_rstN (b : Byte) (s : State) : (feedCrc b s).rstN = s.rstN := rfl
@[simp] theorem feedCrc_hostOps (b : Byte) (s : State) : (feedCrc b s).hostOps = s.hostOps := rfl
@[simp] theorem feedCrc_sched (b : Byte) (s : State) : (feedCrc b s).sched = s.sched := rfl
@[simp] theorem feedCrc_draws (b : Byte) (s : State) : (feedCrc b s).draws = s.draws := rfl
@[simp] theorem feedCrc_rdata (b : Byte) (s : State) : (feedCrc b s).rdata = s.rdata := rfl
@[simp] theorem feedCrc_history (b : Byte) (s : State) : (feedCrc b s).history = s.history := rfl

/-! ### `encodeReading` -/

@[simp] theorem encodeReading_crc (s : State) : (encodeReading s).crc = s.crc := rfl
@[simp] theorem encodeReading_frame (s : State) : (encodeReading s).frame = s.frame := rfl
@[simp] theorem encodeReading_frameWritten (s : State) : (encodeReading s).frameWritten = s.frameWritten := rfl
@[simp] theorem encodeReading_frmLen (s : State) : (encodeReading s).frmLen = s.frmLen := rfl
@[simp] theorem encodeReading_opnd (s : State) : (encodeReading s).opnd = s.opnd := rfl
@[simp] theorem encodeReading_matched (s : State) : (encodeReading s).matched = s.matched := rfl
@[simp] theorem encodeReading_frmOvf (s : State) : (encodeReading s).frmOvf = s.frmOvf := rfl
@[simp] theorem encodeReading_cmdErr (s : State) : (encodeReading s).cmdErr = s.cmdErr := rfl
@[simp] theorem encodeReading_errCode (s : State) : (encodeReading s).errCode = s.errCode := rfl
@[simp] theorem encodeReading_cfgFailsafeEn (s : State) : (encodeReading s).cfgFailsafeEn = s.cfgFailsafeEn := rfl
@[simp] theorem encodeReading_cfgTxtMode (s : State) : (encodeReading s).cfgTxtMode = s.cfgTxtMode := rfl
@[simp] theorem encodeReading_init (s : State) : (encodeReading s).init = s.init := rfl
@[simp] theorem encodeReading_fsm (s : State) : (encodeReading s).fsm = s.fsm := rfl
@[simp] theorem encodeReading_ticks (s : State) : (encodeReading s).ticks = s.ticks := rfl
@[simp] theorem encodeReading_cycles (s : State) : (encodeReading s).cycles = s.cycles := rfl
@[simp] theorem encodeReading_wdtIe (s : State) : (encodeReading s).wdtIe = s.wdtIe := rfl
@[simp] theorem encodeReading_pdEn (s : State) : (encodeReading s).pdEn = s.pdEn := rfl
@[simp] theorem encodeReading_adcEn (s : State) : (encodeReading s).adcEn = s.adcEn := rfl
@[simp] theorem encodeReading_ainFloat (s : State) : (encodeReading s).ainFloat = s.ainFloat := rfl
@[simp] theorem encodeReading_pdReq (s : State) : (encodeReading s).pdReq = s.pdReq := rfl
@[simp] theorem encodeReading_bodOff (s : State) : (encodeReading s).bodOff = s.bodOff := rfl
@[simp] theorem encodeReading_irqDis (s : State) : (encodeReading s).irqDis = s.irqDis := rfl
@[simp] theorem encodeReading_base (s : State) : (encodeReading s).base = s.base := rfl
@[simp] theorem encodeReading_vlow (s : State) : (encodeReading s).vlow = s.vlow := rfl
@[simp] theorem encodeReading_rstN (s : State) : (encodeReading s).rstN = s.rstN := rfl
@[simp] theorem encodeReading_hostOps (s : State) : (encodeReading s).hostOps = s.hostOps := rfl
@[simp] theorem encodeReading_sched (s : State) : (encodeReading s).sched = s.sched := rfl
@[simp] theorem encodeReading_draws (s : State) : (encodeReading s).draws = s.draws := rfl
@[simp] theorem encodeReading_rdata (s : State) : (encodeReading s).rdata = s.rdata := rfl
@[simp] theorem encodeReading_history (s : State) : (encodeReading s).history = s.history := rfl

/-! ### `emit` -/

@[simp] theorem emit_crc (g : Signal) (s : State) : (emit g s).crc = s.crc := rfl
@[simp] theorem emit_frame (g : Signal) (s : State) : (emit g s).frame = s.frame := rfl
@[simp] theorem emit_frameWritten (g : Signal) (s : State) : (emit g s).frameWritten = s.frameWritten := rfl
@[simp] theorem emit_frmLen (g : Signal) (s : State) : (emit g s).frmLen = s.frmLen := rfl
@[simp] theorem emit_opnd (g : Signal) (s : State) : (emit g s).opnd = s.opnd := rfl
@[simp] theorem emit_fencInt (g : Signal) (s : State) : (emit g s).fencInt = s.fencInt := rfl
@[simp] theorem emit_fencFrac (g : Signal) (s : State) : (emit g s).fencFrac = s.fencFrac := rfl
@[simp] theorem emit_matched (g : Signal) (s : State) : (emit g s).matched = s.matched := rfl
@[simp] theorem emit_frmOvf (g : Signal) (s : State) : (emit g s).frmOvf = s.frmOvf := rfl
@[simp] theorem emit_fencRng (g : Signal) (s : State) : (emit g s).fencRng = s.fencRng := rfl
@[simp] theorem emit_cmdErr (g : Signal) (s : State) : (emit g s).cmdErr = s.cmdErr := rfl
@[simp] theorem emit_errCode (g : Signal) (s : State) : (emit g s).errCode = s.errCode := rfl
@[simp] theorem emit_cfgFailsafeEn (g : Signal) (s : State) : (emit g s).cfgFailsafeEn = s.cfgFailsafeEn := rfl
@[simp] theorem emit_cfgTxtMode (g : Signal) (s : State) : (emit g s).cfgTxtMode = s.cfgTxtMode := rfl
@[simp] theorem emit_init (g : Signal) (s : State) : (emit g s).init = s.init := rfl
@[simp] theorem emit_fsm (g : Signal) (s : State) : (emit g s).fsm = s.fsm := rfl
@[simp] theorem emit_ticks (g : Signal) (s : State) : (emit g s).ticks = s.ticks := rfl
@[simp] theorem emit_cycles (g : Signal) (s : State) : (emit g s).cycles = s.cycles := rfl
@[simp] theorem emit_wdtIe (g : Signal) (s : State) : (emit g s).wdtIe = s.wdtIe := rfl
@[simp] theorem emit_pdEn (g : Signal) (s : State) : (emit g s).pdEn = s.pdEn := rfl
@[simp] theorem emit_adcEn (g : Signal) (s : State) : (emit g s).adcEn = s.adcEn := rfl
@[simp] theorem emit_ainFloat (g : Signal) (s : State) : (emit g s).ainFloat = s.ainFloat := rfl
@[simp] theorem emit_pdReq (g : Signal) (s : State) : (emit g s).pdReq = s.pdReq := rfl
@[simp] theorem emit_bodOff (g : Signal) (s : State) : (emit g s).bodOff = s.bodOff := rfl
@[simp] theorem emit_irqDis (g : Signal) (s : State) : (emit g s).irqDis = s.irqDis := rfl
@[simp] theorem emit_base (g : Signal) (s : State) : (emit g s).base = s.base := rfl
@[simp] theorem emit_vlow (g : Signal) (s : State) : (emit g s).vlow = s.vlow := rfl
@[simp] theorem emit_rstN (g : Signal) (s : State) : (emit g s).rstN = s.rstN := rfl
@[simp] theorem emit_hostOps (g : Signal) (s : State) : (emit g s).hostOps = s.hostOps := rfl
@[simp] theorem emit_sched (g : Signal) (s : State) : (emit g s).sched = s.sched := rfl
@[simp] theorem emit_draws (g : Signal) (s : State) : (emit g s).draws = s.draws := rfl
@[simp] theorem emit_rdata (g : Signal) (s : State) : (emit g s).rdata = s.rdata := rfl

/-! ### `writeStatus` -/

@[simp] theorem writeStatus_crc (w : Word) (s : State) : (writeStatus w s).crc = s.crc := rfl
@[simp] theorem writeStatus_frame (w : Word) (s : State) : (writeStatus w s).frame = s.frame := rfl
@[simp] theorem writeStatus_frameWritten (w : Word) (s : State) : (writeStatus w s).frameWritten = s.frameWritten := rfl
@[simp] theorem writeStatus_frmLen (w : Word) (s : State) : (writeStatus w s).frmLen = s.frmLen := rfl
@[simp] theorem writeStatus_opnd (w : Word) (s : State) : (writeStatus w s).opnd = s.opnd := rfl
@[simp] theorem writeStatus_fencInt (w : Word) (s : State) : (writeStatus w s).fencInt = s.fencInt := rfl
@[simp] theorem writeStatus_fencFrac (w : Word) (s : State) : (writeStatus w s).fencFrac = s.fencFrac := rfl
@[simp] theorem writeStatus_matched (w : Word) (s : State) : (writeStatus w s).matched = s.matched := rfl
@[simp] theorem writeStatus_cfgFailsafeEn (w : Word) (s : State) : (writeStatus w s).cfgFailsafeEn = s.cfgFailsafeEn := rfl
@[simp] theorem writeStatus_cfgTxtMode (w : Word) (s : State) : (writeStatus w s).cfgTxtMode = s.cfgTxtMode := rfl
@[simp] theorem writeStatus_init (w : Word) (s : State) : (writeStatus w s).init = s.init := rfl
@[simp] theorem writeStatus_fsm (w : Word) (s : State) : (writeStatus w s).fsm = s.fsm := rfl
@[simp] theorem writeStatus_ticks (w : Word) (s : State) : (writeStatus w s).ticks = s.ticks := rfl
@[simp] theorem writeStatus_cycles (w : Word) (s : State) : (writeStatus w s).cycles = s.cycles := rfl
@[simp] theorem writeStatus_wdtIe (w : Word) (s : State) : (writeStatus w s).wdtIe = s.wdtIe := rfl
@[simp] theorem writeStatus_pdEn (w : Word) (s : State) : (writeStatus w s).pdEn = s.pdEn := rfl
@[simp] theorem writeStatus_adcEn (w : Word) (s : State) : (writeStatus w s).adcEn = s.adcEn := rfl
@[simp] theorem writeStatus_ainFloat (w : Word) (s : State) : (writeStatus w s).ainFloat = s.ainFloat := rfl
@[simp] theorem writeStatus_pdReq (w : Word) (s : State) : (writeStatus w s).pdReq = s.pdReq := rfl
@[simp] theorem writeStatus_bodOff (w : Word) (s : State) : (writeStatus w s).bodOff = s.bodOff := rfl
@[simp] theorem writeStatus_irqDis (w : Word) (s : State) : (writeStatus w s).irqDis = s.irqDis := rfl
@[simp] theorem writeStatus_base (w : Word) (s : State) : (writeStatus w s).base = s.base := rfl
@[simp] theorem writeStatus_vlow (w : Word) (s : State) : (writeStatus w s).vlow = s.vlow := rfl
@[simp] theorem writeStatus_rstN (w : Word) (s : State) : (writeStatus w s).rstN = s.rstN := rfl
@[simp] theorem writeStatus_hostOps (w : Word) (s : State) : (writeStatus w s).hostOps = s.hostOps := rfl
@[simp] theorem writeStatus_sched (w : Word) (s : State) : (writeStatus w s).sched = s.sched := rfl
@[simp] theorem writeStatus_draws (w : Word) (s : State) : (writeStatus w s).draws = s.draws := rfl
@[simp] theorem writeStatus_rdata (w : Word) (s : State) : (writeStatus w s).rdata = s.rdata := rfl
@[simp] theorem writeStatus_history (w : Word) (s : State) : (writeStatus w s).history = s.history := rfl

/-! ### `answer` -/

@[simp] theorem answer_crc (w : Word) (s : State) : (answer w s).crc = s.crc := rfl
@[simp] theorem answer_frame (w : Word) (s : State) : (answer w s).frame = s.frame := rfl
@[simp] theorem answer_frameWritten (w : Word) (s : State) : (answer w s).frameWritten = s.frameWritten := rfl
@[simp] theorem answer_frmLen (w : Word) (s : State) : (answer w s).frmLen = s.frmLen := rfl
@[simp] theorem answer_opnd (w : Word) (s : State) : (answer w s).opnd = s.opnd := rfl
@[simp] theorem answer_fencInt (w : Word) (s : State) : (answer w s).fencInt = s.fencInt := rfl
@[simp] theorem answer_fencFrac (w : Word) (s : State) : (answer w s).fencFrac = s.fencFrac := rfl
@[simp] theorem answer_matched (w : Word) (s : State) : (answer w s).matched = s.matched := rfl
@[simp] theorem answer_frmOvf (w : Word) (s : State) : (answer w s).frmOvf = s.frmOvf := rfl
@[simp] theorem answer_fencRng (w : Word) (s : State) : (answer w s).fencRng = s.fencRng := rfl
@[simp] theorem answer_cmdErr (w : Word) (s : State) : (answer w s).cmdErr = s.cmdErr := rfl
@[simp] theorem answer_errCode (w : Word) (s : State) : (answer w s).errCode = s.errCode := rfl
@[simp] theorem answer_cfgFailsafeEn (w : Word) (s : State) : (answer w s).cfgFailsafeEn = s.cfgFailsafeEn := rfl
@[simp] theorem answer_cfgTxtMode (w : Word) (s : State) : (answer w s).cfgTxtMode = s.cfgTxtMode := rfl
@[simp] theorem answer_init (w : Word) (s : State) : (answer w s).init = s.init := rfl
@[simp] theorem answer_fsm (w : Word) (s : State) : (answer w s).fsm = s.fsm := rfl
@[simp] theorem answer_ticks (w : Word) (s : State) : (answer w s).ticks = s.ticks := rfl
@[simp] theorem answer_cycles (w : Word) (s : State) : (answer w s).cycles = s.cycles := rfl
@[simp] theorem answer_wdtIe (w : Word) (s : State) : (answer w s).wdtIe = s.wdtIe := rfl
@[simp] theorem answer_pdEn (w : Word) (s : State) : (answer w s).pdEn = s.pdEn := rfl
@[simp] theorem answer_adcEn (w : Word) (s : State) : (answer w s).adcEn = s.adcEn := rfl
@[simp] theorem answer_ainFloat (w : Word) (s : State) : (answer w s).ainFloat = s.ainFloat := rfl
@[simp] theorem answer_pdReq (w : Word) (s : State) : (answer w s).pdReq = s.pdReq := rfl
@[simp] theorem answer_bodOff (w : Word) (s : State) : (answer w s).bodOff = s.bodOff := rfl
@[simp] theorem answer_irqDis (w : Word) (s : State) : (answer w s).irqDis = s.irqDis := rfl
@[simp] theorem answer_base (w : Word) (s : State) : (answer w s).base = s.base := rfl
@[simp] theorem answer_vlow (w : Word) (s : State) : (answer w s).vlow = s.vlow := rfl
@[simp] theorem answer_rstN (w : Word) (s : State) : (answer w s).rstN = s.rstN := rfl
@[simp] theorem answer_hostOps (w : Word) (s : State) : (answer w s).hostOps = s.hostOps := rfl
@[simp] theorem answer_sched (w : Word) (s : State) : (answer w s).sched = s.sched := rfl
@[simp] theorem answer_draws (w : Word) (s : State) : (answer w s).draws = s.draws := rfl
@[simp] theorem answer_history (w : Word) (s : State) : (answer w s).history = s.history := rfl

/-! ### `frameWrite` -/

@[simp] theorem frameWrite_crc (i : Nat) (b : Byte) (s : State) : (frameWrite i b s).crc = s.crc := rfl
@[simp] theorem frameWrite_frmLen (i : Nat) (b : Byte) (s : State) : (frameWrite i b s).frmLen = s.frmLen := rfl
@[simp] theorem frameWrite_opnd (i : Nat) (b : Byte) (s : State) : (frameWrite i b s).opnd = s.opnd := rfl
@[simp] theorem frameWrite_fencInt (i : Nat) (b : Byte) (s : State) : (frameWrite i b s).fencInt = s.fencInt := rfl
@[simp] theorem frameWrite_fencFrac (i : Nat) (b : Byte) (s : State) : (frameWrite i b s).fencFrac = s.fencFrac := rfl
@[simp] theorem frameWrite_matched (i : Nat) (b : Byte) (s : State) : (frameWrite i b s).matched = s.matched := rfl
@[simp] theorem frameWrite_frmOvf (i : Nat) (b : Byte) (s : State) : (frameWrite i b s).frmOvf = s.frmOvf := rfl
@[simp] theorem frameWrite_fencRng (i : Nat) (b : Byte) (s : State) : (frameWrite i b s).fencRng = s.fencRng := rfl
@[simp] theorem frameWrite_cmdErr (i : Nat) (b : Byte) (s : State) : (frameWrite i b s).cmdErr = s.cmdErr := rfl
@[simp] theorem frameWrite_errCode (i : Nat) (b : Byte) (s : State) : (frameWrite i b s).errCode = s.errCode := rfl
@[simp] theorem frameWrite_cfgFailsafeEn (i : Nat) (b : Byte) (s : State) : (frameWrite i b s).cfgFailsafeEn = s.cfgFailsafeEn := rfl
@[simp] theorem frameWrite_cfgTxtMode (i : Nat) (b : Byte) (s : State) : (frameWrite i b s).cfgTxtMode = s.cfgTxtMode := rfl
@[simp] theorem frameWrite_init (i : Nat) (b : Byte) (s : State) : (frameWrite i b s).init = s.init := rfl
@[simp] theorem frameWrite_fsm (i : Nat) (b : Byte) (s : State) : (frameWrite i b s).fsm = s.fsm := rfl
@[simp] theorem frameWrite_ticks (i : Nat) (b : Byte) (s : State) : (frameWrite i b s).ticks = s.ticks := rfl
@[simp] theorem frameWrite_cycles (i : Nat) (b : Byte) (s : State) : (frameWrite i b s).cycles = s.cycles := rfl
@[simp] theorem frameWrite_wdtIe (i : Nat) (b : Byte) (s : State) : (frameWrite i b s).wdtIe = s.wdtIe := rfl
@[simp] theorem frameWrite_pdEn (i : Nat) (b : Byte) (s : State) : (frameWrite i b s).pdEn = s.pdEn := rfl
@[simp] theorem frameWrite_adcEn (i : Nat) (b : Byte) (s : State) : (frameWrite i b s).adcEn = s.adcEn := rfl
@[simp] theorem frameWrite_ainFloat (i : Nat) (b : Byte) (s : State) : (frameWrite i b s).ainFloat = s.ainFloat := rfl
@[simp] theorem frameWrite_pdReq (i : Nat) (b : Byte) (s : State) : (frameWrite i b s).pdReq = s.pdReq := rfl
@[simp] theorem frameWrite_bodOff (i : Nat) (b : Byte) (s : State) : (frameWrite i b s).bodOff = s.bodOff := rfl
@[simp] theorem frameWrite_irqDis (i : Nat) (b : Byte) (s : State) : (frameWrite i b s).irqDis = s.irqDis := rfl
@[simp] theorem frameWrite_base (i : Nat) (b : Byte) (s : State) : (frameWrite i b s).base = s.base := rfl
@[simp] theorem frameWrite_vlow (i : Nat) (b : Byte) (s : State) : (frameWrite i b s).vlow = s.vlow := rfl
@[simp] theorem frameWrite_rstN (i : Nat) (b : Byte) (s : State) : (frameWrite i b s).rstN = s.rstN := rfl
@[simp] theorem frameWrite_hostOps (i : Nat) (b : Byte) (s : State) : (frameWrite i b s).hostOps = s.hostOps := rfl
@[simp] theorem frameWrite_sched (i : Nat) (b : Byte) (s : State) : (frameWrite i b s).sched = s.sched := rfl
@[simp] theorem frameWrite_draws (i : Nat) (b : Byte) (s : State) : (frameWrite i b s).draws = s.draws := rfl
@[simp] theorem frameWrite_rdata (i : Nat) (b : Byte) (s : State) : (frameWrite i b s).rdata = s.rdata := rfl
@[simp] theorem frameWrite_history (i : Nat) (b : Byte) (s : State) : (frameWrite i b s).history = s.history := rfl

/-! ### `append` -/

@[simp] theorem append_crc (b : Byte) (s : State) : (append b s).crc = s.crc := by unfold append; split <;> rfl
@[simp] theorem append_opnd (b : Byte) (s : State) : (append b s).opnd = s.opnd := by unfold append; split <;> rfl
@[simp] theorem append_fencInt (b : Byte) (s : State) : (append b s).fencInt = s.fencInt := by unfold append; split <;> rfl
@[simp] theorem append_fencFrac (b : Byte) (s : State) : (append b s).fencFrac = s.fencFrac := by unfold append; split <;> rfl
@[simp] theorem append_matched (b : Byte) (s : State) : (append b s).matched = s.matched := by unfold append; split <;> rfl
@[simp] theorem append_fencRng (b : Byte) (s : State) : (append b s).fencRng = s.fencRng := by unfold append; split <;> rfl
@[simp] theorem append_cmdErr (b : Byte) (s : State) : (append b s).cmdErr = s.cmdErr := by unfold append; split <;> rfl
@[simp] theorem append_errCode (b : Byte) (s : State) : (append b s).errCode = s.errCode := by unfold append; split <;> rfl
@[simp] theorem append_cfgFailsafeEn (b : Byte) (s : State) : (append b s).cfgFailsafeEn = s.cfgFailsafeEn := by unfold append; split <;> rfl
@[simp] theorem append_cfgTxtMode (b : Byte) (s : State) : (append b s).cfgTxtMode = s.cfgTxtMode := by unfold append; split <;> rfl
@[simp] theorem append_init (b : Byte) (s : State) : (append b s).init = s.init := by unfold append; split <;> rfl
@[simp] theorem append_fsm (b : Byte) (s : State) : (append b s).fsm = s.fsm := by unfold append; split <;> rfl
@[simp] theorem append_ticks (b : Byte) (s : State) : (append b s).ticks = s.ticks := by unfold append; split <;> rfl
@[simp] theorem append_cycles (b : Byte) (s : State) : (append b s).cycles = s.cycles := by unfold append; split <;> rfl
@[simp] theorem append_wdtIe (b : Byte) (s : State) : (append b s).wdtIe = s.wdtIe := by unfold append; split <;> rfl
@[simp] theorem append_pdEn (b : Byte) (s : State) : (append b s).pdEn = s.pdEn := by unfold append; split <;> rfl
@[simp] theorem append_adcEn (b : Byte) (s : State) : (append b s).adcEn = s.adcEn := by unfold append; split <;> rfl
@[simp] theorem append_ainFloat (b : Byte) (s : State) : (append b s).ainFloat = s.ainFloat := by unfold append; split <;> rfl
@[simp] theorem append_pdReq (b : Byte) (s : State) : (append b s).pdReq = s.pdReq := by unfold append; split <;> rfl
@[simp] theorem append_bodOff (b : Byte) (s : State) : (append b s).bodOff = s.bodOff := by unfold append; split <;> rfl
@[simp] theorem append_irqDis (b : Byte) (s : State) : (append b s).irqDis = s.irqDis := by unfold append; split <;> rfl
@[simp] theorem append_base (b : Byte) (s : State) : (append b s).base = s.base := by unfold append; split <;> rfl
@[simp] theorem append_vlow (b : Byte) (s : State) : (append b s).vlow = s.vlow := by unfold append; split <;> rfl
@[simp] theorem append_rstN (b : Byte) (s : State) : (append b s).rstN = s.rstN := by unfold append; split <;> rfl
@[simp] theorem append_hostOps (b : Byte) (s : State) : (append b s).hostOps = s.hostOps := by unfold append; split <;> rfl
@[simp] theorem append_sched (b : Byte) (s : State) : (append b s).sched = s.sched := by unfold append; split <;> rfl
@[simp] theorem append_draws (b : Byte) (s : State) : (append b s).draws = s.draws := by unfold append; split <;> rfl
@[simp] theorem append_rdata (b : Byte) (s : State) : (append b s).rdata = s.rdata := by unfold append; split <;> rfl
@[simp] theorem append_history (b : Byte) (s : State) : (append b s).history = s.history := by unfold append; split <;> rfl

/-! ### `appendAll` -/

@[simp] theorem appendAll_crc (bs : List Byte) (s : State) : (appendAll bs s).crc = s.crc := appendAll_keeps (·.crc) append_crc bs s
@[simp] theorem appendAll_opnd (bs : List Byte) (s : State) : (appendAll bs s).opnd = s.opnd := appendAll_keeps (·.opnd) append_opnd bs s
@[simp] theorem appendAll_fencInt (bs : List Byte) (s : State) : (appendAll bs s).fencInt = s.fencInt := appendAll_keeps (·.fencInt) append_fencInt bs s
@[simp] theorem appendAll_fencFrac (bs : List Byte) (s : State) : (appendAll bs s).fencFrac = s.fencFrac := appendAll_keeps (·.fencFrac) append_fencFrac bs s
@[simp] theorem appendAll_matched (bs : List Byte) (s : State) : (appendAll bs s).matched = s.matched := appendAll_keeps (·.matched) append_matched bs s
@[simp] theorem appendAll_fencRng (bs : List Byte) (s : State) : (appendAll bs s).fencRng = s.fencRng := appendAll_keeps (·.fencRng) append_fencRng bs s
@[simp] theorem appendAll_cmdErr (bs : List Byte) (s : State) : (appendAll bs s).cmdErr = s.cmdErr := appendAll_keeps (·.cmdErr) append_cmdErr bs s
@[simp] theorem appendAll_errCode (bs : List Byte) (s : State) : (appendAll bs s).errCode = s.errCode := appendAll_keeps (·.errCode) append_errCode bs s
@[simp] theorem appendAll_cfgFailsafeEn (bs : List Byte) (s : State) : (appendAll bs s).cfgFailsafeEn = s.cfgFailsafeEn := appendAll_keeps (·.cfgFailsafeEn) append_cfgFailsafeEn bs s
@[simp] theorem appendAll_cfgTxtMode (bs : List Byte) (s : State) : (appendAll bs s).cfgTxtMode = s.cfgTxtMode := appendAll_keeps (·.cfgTxtMode) append_cfgTxtMode bs s
@[simp] theorem appendAll_init (bs : List Byte) (s : State) : (appendAll bs s).init = s.init := appendAll_keeps (·.init) append_init bs s
@[simp] theorem appendAll_fsm (bs : List Byte) (s : State) : (appendAll bs s).fsm = s.fsm := appendAll_keeps (·.fsm) append_fsm bs s
@[simp] theorem appendAll_ticks (bs : List Byte) (s : State) : (appendAll bs s).ticks = s.ticks := appendAll_keeps (·.ticks) append_ticks bs s
@[simp] theorem appendAll_cycles (bs : List Byte) (s : State) : (appendAll bs s).cycles = s.cycles := appendAll_keeps (·.cycles) append_cycles bs s
@[simp] theorem appendAll_wdtIe (bs : List Byte) (s : State) : (appendAll bs s).wdtIe = s.wdtIe := appendAll_keeps (·.wdtIe) append_wdtIe bs s
@[simp] theorem appendAll_pdEn (bs : List Byte) (s : State) : (appendAll bs s).pdEn = s.pdEn := appendAll_keeps (·.pdEn) append_pdEn bs s
@[simp] theorem appendAll_adcEn (bs : List Byte) (s : State) : (appendAll bs s).adcEn = s.adcEn := appendAll_keeps (·.adcEn) append_adcEn bs s
@[simp] theorem appendAll_ainFloat (bs : List Byte) (s : State) : (appendAll bs s).ainFloat = s.ainFloat := appendAll_keeps (·.ainFloat) append_ainFloat bs s
@[simp] theorem appendAll_pdReq (bs : List Byte) (s : State) : (appendAll bs s).pdReq = s.pdReq := appendAll_keeps (·.pdReq) append_pdReq bs s
@[simp] theorem appendAll_bodOff (bs : List Byte) (s : State) : (appendAll bs s).bodOff = s.bodOff := appendAll_keeps (·.bodOff) append_bodOff bs s
@[simp] theorem appendAll_irqDis (bs : List Byte) (s : State) : (appendAll bs s).irqDis = s.irqDis := appendAll_keeps (·.irqDis) append_irqDis bs s
@[simp] theorem appendAll_base (bs : List Byte) (s : State) : (appendAll bs s).base = s.base := appendAll_keeps (·.base) append_base bs s
@[simp] theorem appendAll_vlow (bs : List Byte) (s : State) : (appendAll bs s).vlow = s.vlow := appendAll_keeps (·.vlow) append_vlow bs s
@[simp] theorem appendAll_rstN (bs : List Byte) (s : State) : (appendAll bs s).rstN = s.rstN := appendAll_keeps (·.rstN) append_rstN bs s
@[simp] theorem appendAll_hostOps (bs : List Byte) (s : State) : (appendAll bs s).hostOps = s.hostOps := appendAll_keeps (·.hostOps) append_hostOps bs s
@[simp] theorem appendAll_sched (bs : List Byte) (s : State) : (appendAll bs s).sched = s.sched := appendAll_keeps (·.sched) append_sched bs s
@[simp] theorem appendAll_draws (bs : List Byte) (s : State) : (appendAll bs s).draws = s.draws := appendAll_keeps (·.draws) append_draws bs s
@[simp] theorem appendAll_rdata (bs : List Byte) (s : State) : (appendAll bs s).rdata = s.rdata := appendAll_keeps (·.rdata) append_rdata bs s
@[simp] theorem appendAll_history (bs : List Byte) (s : State) : (appendAll bs s).history = s.history := appendAll_keeps (·.history) append_history bs s

/-! ### `tick` -/

@[simp] theorem tick_crc (s : State) : (tick s).crc = s.crc := by unfold tick tickHandler; split <;> (try split) <;> rfl
@[simp] theorem tick_frame (s : State) : (tick s).frame = s.frame := by unfold tick tickHandler; split <;> (try split) <;> rfl
@[simp] theorem tick_frameWritten (s : State) : (tick s).frameWritten = s.frameWritten := by unfold tick tickHandler; split <;> (try split) <;> rfl
@[simp] theorem tick_frmLen (s : State) : (tick s).frmLen = s.frmLen := by unfold tick tickHandler; split <;> (try split) <;> rfl
@[simp] theorem tick_opnd (s : State) : (tick s).opnd = s.opnd := by unfold tick tickHandler; split <;> (try split) <;> rfl
@[simp] theorem tick_fencInt (s : State) : (tick s).fencInt = s.fencInt := by unfold tick tickHandler; split <;> (try split) <;> rfl
@[simp] theorem tick_fencFrac (s : State) : (tick s).fencFrac = s.fencFrac := by unfold tick tickHandler; split <;> (try split) <;> rfl
@[simp] theorem tick_matched (s : State) : (tick s).matched = s.matched := by unfold tick tickHandler; split <;> (try split) <;> rfl
@[simp] theorem tick_frmOvf (s : State) : (tick s).frmOvf = s.frmOvf := by unfold tick tickHandler; split <;> (try split) <;> rfl
@[simp] theorem tick_fencRng (s : State) : (tick s).fencRng = s.fencRng := by unfold tick tickHandler; split <;> (try split) <;> rfl
@[simp] theorem tick_cmdErr (s : State) : (tick s).cmdErr = s.cmdErr := by unfold tick tickHandler; split <;> (try split) <;> rfl
@[simp] theorem tick_errCode (s : State) : (tick s).errCode = s.errCode := by unfold tick tickHandler; split <;> (try split) <;> rfl
@[simp] theorem tick_cfgFailsafeEn (s : State) : (tick s).cfgFailsafeEn = s.cfgFailsafeEn := by unfold tick tickHandler; split <;> (try split) <;> rfl
@[simp] theorem tick_cfgTxtMode (s : State) : (tick s).cfgTxtMode = s.cfgTxtMode := by unfold tick tickHandler; split <;> (try split) <;> rfl
@[simp] theorem tick_init (s : State) : (tick s).init = s.init := by unfold tick tickHandler; split <;> (try split) <;> rfl
@[simp] theorem tick_cycles (s : State) : (tick s).cycles = s.cycles := by unfold tick tickHandler; split <;> (try split) <;> rfl
@[simp] theorem tick_wdtIe (s : State) : (tick s).wdtIe = s.wdtIe := by unfold tick tickHandler; split <;> (try split) <;> rfl
@[simp] theorem tick_pdEn (s : State) : (tick s).pdEn = s.pdEn := by unfold tick tickHandler; split <;> (try split) <;> rfl
@[simp] theorem tick_adcEn (s : State) : (tick s).adcEn = s.adcEn := by unfold tick tickHandler; split <;> (try split) <;> rfl
@[simp] theorem tick_ainFloat (s : State) : (tick s).ainFloat = s.ainFloat := by unfold tick tickHandler; split <;> (try split) <;> rfl
@[simp] theorem tick_irqDis (s : State) : (tick s).irqDis = s.irqDis := by unfold tick tickHandler; split <;> (try split) <;> rfl
@[simp] theorem tick_base (s : State) : (tick s).base = s.base := by unfold tick tickHandler; split <;> (try split) <;> rfl
@[simp] theorem tick_vlow (s : State) : (tick s).vlow = s.vlow := by unfold tick tickHandler; split <;> (try split) <;> rfl
@[simp] theorem tick_rstN (s : State) : (tick s).rstN = s.rstN := by unfold tick tickHandler; split <;> (try split) <;> rfl
@[simp] theorem tick_hostOps (s : State) : (tick s).hostOps = s.hostOps := by unfold tick tickHandler; split <;> (try split) <;> rfl
@[simp] theorem tick_sched (s : State) : (tick s).sched = s.sched := by unfold tick tickHandler; split <;> (try split) <;> rfl
@[simp] theorem tick_draws (s : State) : (tick s).draws = s.draws := by unfold tick tickHandler; split <;> (try split) <;> rfl
@[simp] theorem tick_rdata (s : State) : (tick s).rdata = s.rdata := by unfold tick tickHandler; split <;> (try split) <;> rfl
@[simp] theorem tick_history (s : State) : (tick s).history = s.history := by unfold tick tickHandler; split <;> (try split) <;> rfl

/-! ### `blockStep` -/

@[simp] theorem blockStep_crc (s : State) : (blockStep s).crc = s.crc := by unfold blockStep armedStep; split <;> (try split) <;> rfl
@[simp] theorem blockStep_frame (s : State) : (blockStep s).frame = s.frame := by unfold blockStep armedStep; split <;> (try split) <;> rfl
@[simp] theorem blockStep_frameWritten (s : State) : (blockStep s).frameWritten = s.frameWritten := by unfold blockStep armedStep; split <;> (try split) <;> rfl
@[simp] theorem blockStep_frmLen (s : State) : (blockStep s).frmLen = s.frmLen := by unfold blockStep armedStep; split <;> (try split) <;> rfl
@[simp] theorem blockStep_opnd (s : State) : (blockStep s).opnd = s.opnd := by unfold blockStep armedStep; split <;> (try split) <;> rfl
@[simp] theorem blockStep_fencInt (s : State) : (blockStep s).fencInt = s.fencInt := by unfold blockStep armedStep; split <;> (try split) <;> rfl
@[simp] theorem blockStep_fencFrac (s : State) : (blockStep s).fencFrac = s.fencFrac := by unfold blockStep armedStep; split <;> (try split) <;> rfl
@[simp] theorem blockStep_matched (s : State) : (blockStep s).matched = s.matched := by unfold blockStep armedStep; split <;> (try split) <;> rfl
@[simp] theorem blockStep_frmOvf (s : State) : (blockStep s).frmOvf = s.frmOvf := by unfold blockStep armedStep; split <;> (try split) <;> rfl
@[simp] theorem blockStep_fencRng (s : State) : (blockStep s).fencRng = s.fencRng := by unfold blockStep armedStep; split <;> (try split) <;> rfl
@[simp] theorem blockStep_cmdErr (s : State) : (blockStep s).cmdErr = s.cmdErr := by unfold blockStep armedStep; split <;> (try split) <;> rfl
@[simp] theorem blockStep_errCode (s : State) : (blockStep s).errCode = s.errCode := by unfold blockStep armedStep; split <;> (try split) <;> rfl
@[simp] theorem blockStep_cfgFailsafeEn (s : State) : (blockStep s).cfgFailsafeEn = s.cfgFailsafeEn := by unfold blockStep armedStep; split <;> (try split) <;> rfl
@[simp] theorem blockStep_cfgTxtMode (s : State) : (blockStep s).cfgTxtMode = s.cfgTxtMode := by unfold blockStep armedStep; split <;> (try split) <;> rfl
@[simp] theorem blockStep_init (s : State) : (blockStep s).init = s.init := by unfold blockStep armedStep; split <;> (try split) <;> rfl
@[simp] theorem blockStep_ticks (s : State) : (blockStep s).ticks = s.ticks := by unfold blockStep armedStep; split <;> (try split) <;> rfl
@[simp] theorem blockStep_cycles (s : State) : (blockStep s).cycles = s.cycles := by unfold blockStep armedStep; split <;> (try split) <;> rfl
@[simp] theorem blockStep_wdtIe (s : State) : (blockStep s).wdtIe = s.wdtIe := by unfold blockStep armedStep; split <;> (try split) <;> rfl
@[simp] theorem blockStep_pdEn (s : State) : (blockStep s).pdEn = s.pdEn := by unfold blockStep armedStep; split <;> (try split) <;> rfl
@[simp] theorem blockStep_ainFloat (s : State) : (blockStep s).ainFloat = s.ainFloat := by unfold blockStep armedStep; split <;> (try split) <;> rfl
@[simp] theorem blockStep_irqDis (s : State) : (blockStep s).irqDis = s.irqDis := by unfold blockStep armedStep; split <;> (try split) <;> rfl
@[simp] theorem blockStep_base (s : State) : (blockStep s).base = s.base := by unfold blockStep armedStep; split <;> (try split) <;> rfl
@[simp] theorem blockStep_vlow (s : State) : (blockStep s).vlow = s.vlow := by unfold blockStep armedStep; split <;> (try split) <;> rfl
@[simp] theorem blockStep_rstN (s : State) : (blockStep s).rstN = s.rstN := by unfold blockStep armedStep; split <;> (try split) <;> rfl
@[simp] theorem blockStep_hostOps (s : State) : (blockStep s).hostOps = s.hostOps := by unfold blockStep armedStep; split <;> (try split) <;> rfl
@[simp] theorem blockStep_sched (s : State) : (blockStep s).sched = s.sched := by unfold blockStep armedStep; split <;> (try split) <;> rfl
@[simp] theorem blockStep_draws (s : State) : (blockStep s).draws = s.draws := by unfold blockStep armedStep; split <;> (try split) <;> rfl
@[simp] theorem blockStep_rdata (s : State) : (blockStep s).rdata = s.rdata := by unfold blockStep armedStep; split <;> (try split) <;> rfl
@[simp] theorem blockStep_history (s : State) : (blockStep s).history = s.history := by unfold blockStep armedStep; split <;> (try split) <;> rfl

/-! ### `acceptSleep` -/

@[simp] theorem acceptSleep_crc (h : Half) (s : State) : (acceptSleep h s).crc = s.crc := by unfold acceptSleep; dsimp only; split <;> rfl
@[simp] theorem acceptSleep_frame (h : Half) (s : State) : (acceptSleep h s).frame = s.frame := by unfold acceptSleep; dsimp only; split <;> rfl
@[simp] theorem acceptSleep_frameWritten (h : Half) (s : State) : (acceptSleep h s).frameWritten = s.frameWritten := by unfold acceptSleep; dsimp only; split <;> rfl
@[simp] theorem acceptSleep_frmLen (h : Half) (s : State) : (acceptSleep h s).frmLen = s.frmLen := by unfold acceptSleep; dsimp only; split <;> rfl
@[simp] theorem acceptSleep_opnd (h : Half) (s : State) : (acceptSleep h s).opnd = s.opnd := by unfold acceptSleep; dsimp only; split <;> rfl
@[simp] theorem acceptSleep_fencInt (h : Half) (s : State) : (acceptSleep h s).fencInt = s.fencInt := by unfold acceptSleep; dsimp only; split <;> rfl
@[simp] theorem acceptSleep_fencFrac (h : Half) (s : State) : (acceptSleep h s).fencFrac = s.fencFrac := by unfold acceptSleep; dsimp only; split <;> rfl
@[simp] theorem acceptSleep_matched (h : Half) (s : State) : (acceptSleep h s).matched = s.matched := by unfold acceptSleep; dsimp only; split <;> rfl
@[simp] theorem acceptSleep_frmOvf (h : Half) (s : State) : (acceptSleep h s).frmOvf = s.frmOvf := by unfold acceptSleep; dsimp only; split <;> rfl
@[simp] theorem acceptSleep_fencRng (h : Half) (s : State) : (acceptSleep h s).fencRng = s.fencRng := by unfold acceptSleep; dsimp only; split <;> rfl
@[simp] theorem acceptSleep_cmdErr (h : Half) (s : State) : (acceptSleep h s).cmdErr = s.cmdErr := by unfold acceptSleep; dsimp only; split <;> rfl
@[simp] theorem acceptSleep_errCode (h : Half) (s : State) : (acceptSleep h s).errCode = s.errCode := by unfold acceptSleep; dsimp only; split <;> rfl
@[simp] theorem acceptSleep_cfgFailsafeEn (h : Half) (s : State) : (acceptSleep h s).cfgFailsafeEn = s.cfgFailsafeEn := by unfold acceptSleep; dsimp only; split <;> rfl
@[simp] theorem acceptSleep_cfgTxtMode (h : Half) (s : State) : (acceptSleep h s).cfgTxtMode = s.cfgTxtMode := by unfold acceptSleep; dsimp only; split <;> rfl
@[simp] theorem acceptSleep_init (h : Half) (s : State) : (acceptSleep h s).init = s.init := by unfold acceptSleep; dsimp only; split <;> rfl
@[simp] theorem acceptSleep_wdtIe (h : Half) (s : State) : (acceptSleep h s).wdtIe = s.wdtIe := by unfold acceptSleep; dsimp only; split <;> rfl
@[simp] theorem acceptSleep_pdEn (h : Half) (s : State) : (acceptSleep h s).pdEn = s.pdEn := by unfold acceptSleep; dsimp only; split <;> rfl
@[simp] theorem acceptSleep_base (h : Half) (s : State) : (acceptSleep h s).base = s.base := by unfold acceptSleep; dsimp only; split <;> rfl
@[simp] theorem acceptSleep_vlow (h : Half) (s : State) : (acceptSleep h s).vlow = s.vlow := by unfold acceptSleep; dsimp only; split <;> rfl
@[simp] theorem acceptSleep_rstN (h : Half) (s : State) : (acceptSleep h s).rstN = s.rstN := by unfold acceptSleep; dsimp only; split <;> rfl
@[simp] theorem acceptSleep_hostOps (h : Half) (s : State) : (acceptSleep h s).hostOps = s.hostOps := by unfold acceptSleep; dsimp only; split <;> rfl
@[simp] theorem acceptSleep_sched (h : Half) (s : State) : (acceptSleep h s).sched = s.sched := by unfold acceptSleep; dsimp only; split <;> rfl
@[simp] theorem acceptSleep_draws (h : Half) (s : State) : (acceptSleep h s).draws = s.draws := by unfold acceptSleep; dsimp only; split <;> rfl
@[simp] theorem acceptSleep_rdata (h : Half) (s : State) : (acceptSleep h s).rdata = s.rdata := by unfold acceptSleep; dsimp only; split <;> rfl

/-! ### `slpInit` -/

@[simp] theorem slpInit_crc (s : State) : (slpInit s).crc = s.crc := by unfold slpInit; split <;> rfl
@[simp] theorem slpInit_frame (s : State) : (slpInit s).frame = s.frame := by unfold slpInit; split <;> rfl
@[simp] theorem slpInit_frameWritten (s : State) : (slpInit s).frameWritten = s.frameWritten := by unfold slpInit; split <;> rfl
@[simp] theorem slpInit_frmLen (s : State) : (slpInit s).frmLen = s.frmLen := by unfold slpInit; split <;> rfl
@[simp] theorem slpInit_opnd (s : State) : (slpInit s).opnd = s.opnd := by unfold slpInit; split <;> rfl
@[simp] theorem slpInit_fencInt (s : State) : (slpInit s).fencInt = s.fencInt := by unfold slpInit; split <;> rfl
@[simp] theorem slpInit_fencFrac (s : State) : (slpInit s).fencFrac = s.fencFrac := by unfold slpInit; split <;> rfl
@[simp] theorem slpInit_matched (s : State) : (slpInit s).matched = s.matched := by unfold slpInit; split <;> rfl
@[simp] theorem slpInit_frmOvf (s : State) : (slpInit s).frmOvf = s.frmOvf := by unfold slpInit; split <;> rfl
@[simp] theorem slpInit_fencRng (s : State) : (slpInit s).fencRng = s.fencRng := by unfold slpInit; split <;> rfl
@[simp] theorem slpInit_cfgFailsafeEn (s : State) : (slpInit s).cfgFailsafeEn = s.cfgFailsafeEn := by unfold slpInit; split <;> rfl
@[simp] theorem slpInit_cfgTxtMode (s : State) : (slpInit s).cfgTxtMode = s.cfgTxtMode := by unfold slpInit; split <;> rfl
@[simp] theorem slpInit_fsm (s : State) : (slpInit s).fsm = s.fsm := by unfold slpInit; split <;> rfl
@[simp] theorem slpInit_ticks (s : State) : (slpInit s).ticks = s.ticks := by unfold slpInit; split <;> rfl
@[simp] theorem slpInit_cycles (s : State) : (slpInit s).cycles = s.cycles := by unfold slpInit; split <;> rfl
@[simp] theorem slpInit_ainFloat (s : State) : (slpInit s).ainFloat = s.ainFloat := by unfold slpInit; split <;> rfl
@[simp] theorem slpInit_pdReq (s : State) : (slpInit s).pdReq = s.pdReq := by unfold slpInit; split <;> rfl
@[simp] theorem slpInit_bodOff (s : State) : (slpInit s).bodOff = s.bodOff := by unfold slpInit; split <;> rfl
@[simp] theorem slpInit_irqDis (s : State) : (slpInit s).irqDis = s.irqDis := by unfold slpInit; split <;> rfl
@[simp] theorem slpInit_base (s : State) : (slpInit s).base = s.base := by unfold slpInit; split <;> rfl
@[simp] theorem slpInit_vlow (s : State) : (slpInit s).vlow = s.vlow := by unfold slpInit; split <;> rfl
@[simp] theorem slpInit_rstN (s : State) : (slpInit s).rstN = s.rstN := by unfold slpInit; split <;> rfl
@[simp] theorem slpInit_hostOps (s : State) : (slpInit s).hostOps = s.hostOps := by unfold slpInit; split <;> rfl
@[simp] theorem slpInit_sched (s : State) : (slpInit s).sched = s.sched := by unfold slpInit; split <;> rfl
@[simp] theorem slpInit_draws (s : State) : (slpInit s).draws = s.draws := by unfold slpInit; split <;> rfl
@[simp] theorem slpInit_rdata (s : State) : (slpInit s).rdata = s.rdata := by unfold slpInit; split <;> rfl
@[simp] theorem slpInit_history (s : State) : (slpInit s).history = s.history := by unfold slpInit; split <;> rfl

/-! ### `resetBlock` -/

@[simp] theorem resetBlock_frame (s : State) : (resetBlock s).frame = s.frame := rfl
@[simp] theorem resetBlock_base (s : State) : (resetBlock s).base = s.base := rfl
@[simp] theorem resetBlock_vlow (s : State) : (resetBlock s).vlow = s.vlow := rfl
@[simp] theorem resetBlock_rstN (s : State) : (resetBlock s).rstN = s.rstN := rfl
@[simp] theorem resetBlock_hostOps (s : State) : (resetBlock s).hostOps = s.hostOps := rfl
@[simp] theorem resetBlock_sched (s : State) : (resetBlock s).sched = s.sched := rfl
@[simp] theorem resetBlock_draws (s : State) : (resetBlock s).draws = s.draws := rfl
@[simp] theorem resetBlock_rdata (s : State) : (resetBlock s).rdata = s.rdata := rfl
@[simp] theorem resetBlock_history (s : State) : (resetBlock s).history = s.history := rfl

@[simp] theorem resetBlock_crc (s : State) : (resetBlock s).crc = 0 := rfl
@[simp] theorem resetBlock_frameWritten (s : State) : (resetBlock s).frameWritten = 0 := rfl
@[simp] theorem resetBlock_frmLen (s : State) : (resetBlock s).frmLen = 0 := rfl
@[simp] theorem resetBlock_opnd (s : State) : (resetBlock s).opnd = 0 := rfl
@[simp] theorem resetBlock_fencInt (s : State) : (resetBlock s).fencInt = 0 := rfl
@[simp] theorem resetBlock_fencFrac (s : State) : (resetBlock s).fencFrac = 0 := rfl
@[simp] theorem resetBlock_matched (s : State) : (resetBlock s).matched = false := rfl
@[simp] theorem resetBlock_frmOvf (s : State) : (resetBlock s).frmOvf = false := rfl
@[simp] theorem resetBlock_fencRng (s : State) : (resetBlock s).fencRng = false := rfl
@[simp] theorem resetBlock_cmdErr (s : State) : (resetBlock s).cmdErr = false := rfl
@[simp] theorem resetBlock_errCode (s : State) : (resetBlock s).errCode = .none := rfl
@[simp] theorem resetBlock_cfgFailsafeEn (s : State) : (resetBlock s).cfgFailsafeEn = true := rfl
@[simp] theorem resetBlock_cfgTxtMode (s : State) : (resetBlock s).cfgTxtMode = false := rfl
@[simp] theorem resetBlock_init (s : State) : (resetBlock s).init = false := rfl
@[simp] theorem resetBlock_fsm (s : State) : (resetBlock s).fsm = .awake := rfl
@[simp] theorem resetBlock_ticks (s : State) : (resetBlock s).ticks = 0 := rfl
@[simp] theorem resetBlock_cycles (s : State) : (resetBlock s).cycles = 0 := rfl
@[simp] theorem resetBlock_wdtIe (s : State) : (resetBlock s).wdtIe = false := rfl
@[simp] theorem resetBlock_pdEn (s : State) : (resetBlock s).pdEn = false := rfl
@[simp] theorem resetBlock_adcEn (s : State) : (resetBlock s).adcEn = true := rfl
@[simp] theorem resetBlock_ainFloat (s : State) : (resetBlock s).ainFloat = false := rfl
@[simp] theorem resetBlock_pdReq (s : State) : (resetBlock s).pdReq = false := rfl
@[simp] theorem resetBlock_bodOff (s : State) : (resetBlock s).bodOff = false := rfl
@[simp] theorem resetBlock_irqDis (s : State) : (resetBlock s).irqDis = false := rfl

/-! ### Written fields of the plain updates -/

@[simp] theorem cmdError_cmdErr (c : ErrCode) (s : State) : (cmdError c s).cmdErr = true := rfl
@[simp] theorem cmdError_errCode (c : ErrCode) (s : State) :
    (cmdError c s).errCode = if s.cmdErr then s.errCode else c := rfl
@[simp] theorem feedCrc_crc (b : Byte) (s : State) : (feedCrc b s).crc = crc16Update s.crc b := rfl
@[simp] theorem encodeReading_fencInt (s : State) : (encodeReading s).fencInt = intByte s.opnd := rfl
@[simp] theorem encodeReading_fencFrac (s : State) : (encodeReading s).fencFrac = fracByte s.opnd := rfl
@[simp] theorem encodeReading_fencRng (s : State) :
    (encodeReading s).fencRng = (s.fencRng || readingOutOfRange s.opnd) := rfl
@[simp] theorem emit_history (g : Signal) (s : State) : (emit g s).history = g :: s.history := rfl
@[simp] theorem answer_rdata (w : Word) (s : State) : (answer w s).rdata = w := rfl
@[simp] theorem acceptSleep_cycles (h : Half) (s : State) : (acceptSleep h s).cycles = h := by
  unfold acceptSleep; dsimp only; split <;> rfl
@[simp] theorem slpInit_init (s : State) : (slpInit s).init = true := by
  unfold slpInit; split
  · assumption
  · rfl

end Sys2Proof.Machine
end

