-- ==== Sys2Proof/Laws/Memory.lean ====
section
/-! SUPPORT. The frame buffer as a memory: read after write, and the canonical form is kept. -/

namespace Sys2Proof.Machine

/-- A write followed by a read: the byte at its index, the old content everywhere else. -/
theorem Memory.read_write (m : Memory) (i j : Nat) (b : Byte) :
    Memory.read (Memory.write m i b) j = if j = i then some b else Memory.read m j := by
  induction m with
  | nil => simp [Memory.write, Memory.read, eq_comm]
  | cons c m ih =>
    obtain ⟨a, x⟩ := c
    simp only [Memory.write]
    split
    · simp [Memory.read, eq_comm]
    · split
      · next _ h =>
        subst h
        by_cases hj : j = i
        · simp [Memory.read, hj]
        · simp [Memory.read, hj, show ¬ i = j by omega]
      · simp only [Memory.read, ih]
        by_cases h : j = i
        · subst h
          simp [show ¬ a = j by omega]
        · simp [h]

theorem Memory.read_write_same (m : Memory) (i : Nat) (b : Byte) : Memory.read (Memory.write m i b) i = some b := by
  simp [Memory.read_write]

theorem Memory.read_write_other (m : Memory) {i j : Nat} (b : Byte) (h : j ≠ i) :
    Memory.read (Memory.write m i b) j = Memory.read m j := by
  simp [Memory.read_write, h]

/-- Cells in canonical form from `lo` on are so from any lower index on. -/
theorem Memory.wfFrom_mono {lo lo' : Nat} (h : lo' ≤ lo) {m : Memory} (hm : Memory.wfFrom lo m = true) :
    Memory.wfFrom lo' m = true := by
  cases m with
  | nil => rfl
  | cons c m =>
    simp only [Memory.wfFrom, Bool.and_eq_true, decide_eq_true_eq] at hm ⊢
    exact ⟨⟨by omega, hm.1.2⟩, hm.2⟩

theorem Memory.wfFrom_write {lo i : Nat} (hlo : lo ≤ i) (hi : i < Config.frameMax) (b : Byte) {m : Memory}
    (hm : Memory.wfFrom lo m = true) : Memory.wfFrom lo (Memory.write m i b) = true := by
  induction m generalizing lo with
  | nil => simp [Memory.write, Memory.wfFrom, hlo, hi]
  | cons c m ih =>
    obtain ⟨a, x⟩ := c
    simp only [Memory.wfFrom, Bool.and_eq_true, decide_eq_true_eq] at hm
    obtain ⟨⟨hla, ha⟩, hm⟩ := hm
    simp only [Memory.write]
    split
    · next h =>
      simp only [Memory.wfFrom, Bool.and_eq_true, decide_eq_true_eq]
      exact ⟨⟨hlo, hi⟩, ⟨by omega, ha⟩, hm⟩
    · split
      · next h =>
        subst h
        simp [Memory.wfFrom, hlo, hi, hm]
      · next h h' =>
        simp only [Memory.wfFrom, Bool.and_eq_true, decide_eq_true_eq]
        exact ⟨⟨hla, ha⟩, ih (by omega) hm⟩

/-- A write of a frame byte keeps the canonical form. -/
theorem Memory.wf_write {m : Memory} (hm : Memory.wf m = true) {i : Nat} (hi : i < Config.frameMax) (b : Byte) :
    Memory.wf (Memory.write m i b) = true :=
  Memory.wfFrom_write (Nat.zero_le i) hi b hm

/-- Every canonical list reads as `none` below its first index. -/
theorem Memory.read_below {lo i : Nat} (h : i < lo) {m : Memory} (hm : Memory.wfFrom lo m = true) :
    Memory.read m i = none := by
  induction m generalizing lo with
  | nil => rfl
  | cons c m ih =>
    simp only [Memory.wfFrom, Bool.and_eq_true, decide_eq_true_eq] at hm
    simp only [Memory.read, if_neg (show ¬ c.1 = i by omega)]
    exact ih (by omega) hm.2

/-- Equal reads make equal canonical memories: the form is canonical. -/
theorem Memory.ext_read {lo : Nat} {m m' : Memory} (hm : Memory.wfFrom lo m = true) (hm' : Memory.wfFrom lo m' = true)
    (h : ∀ i, Memory.read m i = Memory.read m' i) : m = m' := by
  induction m generalizing lo m' with
  | nil =>
    cases m' with
    | nil => rfl
    | cons c m' => simpa [Memory.read] using h c.1
  | cons c m ih =>
    obtain ⟨a, x⟩ := c
    cases m' with
    | nil => simpa [Memory.read] using h a
    | cons c' m' =>
      obtain ⟨a', x'⟩ := c'
      simp only [Memory.wfFrom, Bool.and_eq_true, decide_eq_true_eq] at hm hm'
      have haa : a = a' := by
        rcases Nat.lt_trichotomy a a' with hlt | heq | hgt
        · have := h a
          simp only [Memory.read, if_pos, if_neg (show ¬ a' = a by omega),
            Memory.read_below (show a < a' + 1 by omega) hm'.2] at this
          cases this
        · exact heq
        · have := h a'
          simp only [Memory.read, if_pos, if_neg (show ¬ a = a' by omega),
            Memory.read_below (show a' < a + 1 by omega) hm.2] at this
          cases this
      subst haa
      have hx : x = x' := by simpa [Memory.read] using h a
      subst hx
      refine congrArg _ (ih hm.2 hm'.2 fun i => ?_)
      by_cases hi : a = i
      · subst hi
        rw [Memory.read_below (Nat.lt_succ_self a) hm.2, Memory.read_below (Nat.lt_succ_self a) hm'.2]
      · simpa [Memory.read, hi] using h i

theorem Memory.reset_wf : Memory.wf State.reset.frame = true := rfl

/-! ### `frame_written[]` and the value of a frame byte -/

@[simp] theorem frameWrite_frameWrittenAt (i j : Nat) (b : Byte) (s : State) :
    (frameWrite i b s).frameWrittenAt j = (s.frameWrittenAt j || decide (j = i ∧ i < 256)) := by
  by_cases h : j = i
  · subst h
    simp [frameWrite, State.frameWrittenAt, BitVec.getLsbD_or, BitVec.getLsbD_twoPow]
  · simp [frameWrite, State.frameWrittenAt, BitVec.getLsbD_or, BitVec.getLsbD_twoPow, h, Ne.symm h]

/-- `FrameWrite(i, b)` (R57): byte `i` is `b`, every other byte reads as before. -/
theorem frameWrite_frameByte {i : Nat} (hi : i < 256) (j : Nat) (b : Byte) (s : State) :
    (frameWrite i b s).frameByte j = if j = i then some b else s.frameByte j := by
  simp only [State.frameByte, frameWrite_frameWrittenAt]
  by_cases h : j = i
  · subst h
    simp [hi, frameWrite, Memory.read_write]
  · simp [h, frameWrite, Memory.read_write]

end Sys2Proof.Machine
end

