-- ==== Sys2Proof/Laws/Append.lean ====
section
/-! SUPPORT. What appending does, once for any number of bytes: `appendAll bs s` is `Appends bs s` (R98), and it keeps the
frame invariant. -/

namespace Sys2Proof.Machine

@[simp] theorem appendAll_nil (s : State) : appendAll [] s = s := rfl
@[simp] theorem appendAll_cons (b : Byte) (bs : List Byte) (s : State) :
    appendAll (b :: bs) s = appendAll bs (append b s) := rfl

theorem appendAll_append (bs cs : List Byte) (s : State) :
    appendAll (bs ++ cs) s = appendAll cs (appendAll bs s) := by
  simp [appendAll, List.foldl_append]

/-- `Append(b)` with room (R98). -/
theorem append_fits {s : State} (h : s.frmLen.toNat < 256) (b : Byte) :
    append b s = { frameWrite s.frmLen.toNat b s with frmLen := s.frmLen + 1 } := by
  simp [append, Config.frameMax, h]

/-- `Append(b)` on a full buffer (R98): dropped. -/
theorem append_full {s : State} (h : ¬ s.frmLen.toNat < 256) (b : Byte) : append b s = { s with frmOvf := true } := by
  simp [append, Config.frameMax, h]

theorem append_frmLen (b : Byte) (s : State) :
    (append b s).frmLen.toNat = if s.frmLen.toNat < 256 then s.frmLen.toNat + 1 else s.frmLen.toNat := by
  split
  · next h =>
    rw [append_fits h]
    simp only [BitVec.toNat_add]
    exact Nat.mod_eq_of_lt (show _ + 1 < 65536 by omega)
  · next h => rw [append_full h]

theorem append_frmOvf (b : Byte) (s : State) :
    (append b s).frmOvf = (s.frmOvf || decide (¬ s.frmLen.toNat < 256)) := by
  by_cases h : s.frmLen.toNat < 256
  · simp [append_fits h, h, frameWrite]
  · simp [append_full h, h]

theorem append_frameByte (b : Byte) (s : State) (i : Nat) :
    (append b s).frameByte i =
      if s.frmLen.toNat < 256 ∧ i = s.frmLen.toNat then some b else s.frameByte i := by
  by_cases h : s.frmLen.toNat < 256
  · rw [append_fits h]
    exact (frameWrite_frameByte h i b s).trans (by simp [h])
  · rw [append_full h, if_neg (fun hc => h hc.1)]
    rfl

/-- Appends touch only the buffer, its length and its overflow flag. -/
theorem appendAll_frame (bs : List Byte) (s : State) :
    { appendAll bs s with
      frame := s.frame, frameWritten := s.frameWritten, frmLen := s.frmLen, frmOvf := s.frmOvf } = s := by
  conv_rhs => rw [show s = { s with frame := s.frame } from rfl]
  simp

/-- Appending bytes in order (R98): those that fit are kept, the rest are dropped and `frm_ovf` is set. -/
theorem appendAll_appends (bs : List Byte) (s : State) : Appends bs s (appendAll bs s) := by
  refine ⟨?_, ?_, ?_, appendAll_frame bs s⟩
  · induction bs generalizing s with
    | nil => rfl
    | cons b bs ih =>
      rw [appendAll_cons, ih, append_frmLen]
      split <;> simp only [List.length_cons] <;> omega
  · induction bs generalizing s with
    | nil => simp
    | cons b bs ih =>
      rw [appendAll_cons, ih, append_frmLen, append_frmOvf, Bool.or_assoc, ← Bool.decide_or]
      congr 1
      rw [decide_eq_decide]
      split <;> simp only [List.length_cons] <;> omega
  · induction bs generalizing s with
    | nil => intro i; rw [if_neg (by simp)]; rfl
    | cons b bs ih =>
      intro i
      rw [appendAll_cons, ih, append_frmLen, append_frameByte]
      by_cases h : s.frmLen.toNat < 256
      · simp only [h, if_true, true_and, List.length_cons]
        by_cases hi : i = s.frmLen.toNat
        · subst hi
          rw [if_neg (by omega), if_pos rfl, if_pos (by omega)]
          simp
        · by_cases hin : s.frmLen.toNat + 1 ≤ i ∧ i < s.frmLen.toNat + 1 + min bs.length (256 - (s.frmLen.toNat + 1))
          · rw [if_pos hin, if_pos (by omega)]
            obtain ⟨k, hk⟩ : ∃ k, i = s.frmLen.toNat + 1 + k := ⟨i - (s.frmLen.toNat + 1), by omega⟩
            subst hk
            rw [show s.frmLen.toNat + 1 + k - (s.frmLen.toNat + 1) = k by omega,
              show s.frmLen.toNat + 1 + k - s.frmLen.toNat = k + 1 by omega, List.getElem?_cons_succ]
          · rw [if_neg hin, if_neg hi, if_neg (by omega)]
      · simp only [h, if_false, false_and]
        rw [if_neg (by omega), if_neg (by omega)]

/-- `FRM_BYTE`'s effect as an append after the CRC update. -/
theorem appendPayload_eq (b : Byte) (s : State) : appendPayload b s = appendAll [b] (feedCrc b s) := rfl

/-- The CRC update and an append do not meet. -/
theorem feedCrc_append (b c : Byte) (s : State) : feedCrc c (append b s) = append b (feedCrc c s) := by
  by_cases h : s.frmLen.toNat < 256
  · rw [append_fits h, append_fits (s := feedCrc c s) h]
    rfl
  · rw [append_full h, append_full (s := feedCrc c s) h]
    rfl

/-- An append keeps the frame invariant (R28, R57, R98). -/
theorem append_frameInv (b : Byte) {s : State} (h : FrameInv s) : FrameInv (append b s) := by
  obtain ⟨hwf, hlen, hlisted, hwritten⟩ := h
  by_cases hl : s.frmLen.toNat < 256
  · have hlen' : (append b s).frmLen.toNat = s.frmLen.toNat + 1 := by rw [append_frmLen, if_pos hl]
    rw [append_fits hl] at hlen' ⊢
    refine ⟨Memory.wf_write hwf hl b, by simp only at hlen'; simp only [hlen', Config.frameMax]; omega, ?_, ?_⟩
    · intro i hi hw
      have hw' : (s.frameWrittenAt i || decide (i = s.frmLen.toNat ∧ s.frmLen.toNat < 256)) = true :=
        (frameWrite_frameWrittenAt s.frmLen.toNat i b s).symm.trans hw
      show (Memory.read (Memory.write s.frame s.frmLen.toNat b) i).isSome = true
      rw [Memory.read_write]
      split
      · rfl
      · next hne => exact hlisted i hi (by simpa [hne] using hw')
    · intro i hi
      show (frameWrite s.frmLen.toNat b s).frameWrittenAt i = true
      rw [frameWrite_frameWrittenAt]
      simp only at hlen'
      simp only [hlen'] at hi
      by_cases hne : i = s.frmLen.toNat
      · simp [hne, hl]
      · simp [hwritten i (by omega)]
  · rw [append_full hl]
    exact ⟨hwf, hlen, hlisted, hwritten⟩

theorem appendAll_frameInv (bs : List Byte) {s : State} (h : FrameInv s) : FrameInv (appendAll bs s) := by
  induction bs generalizing s with
  | nil => exact h
  | cons b bs ih => exact ih (append_frameInv b h)

end Sys2Proof.Machine
end

