-- ==== Sys2Proof/Laws/Decode.lean ====
section
/-! SUPPORT. The fields of a command word as numbers, the fields of an encoded word, and one spec lemma for each format of the
decoder. -/

namespace Sys2Proof

/-! ### Fields as numbers (R73) -/

theorem opcField_toNat (w : Word) : (opcField w).toNat = w.toNat % 256 := by
  simp [opcField, BitVec.extractLsb'_toNat]

theorem rsvField_toNat (w : Word) : (rsvField w).toNat = w.toNat / 256 % 256 := by
  simp [rsvField, BitVec.extractLsb'_toNat, Nat.shiftRight_eq_div_pow]

theorem byteField_toNat (w : Word) : (byteField w).toNat = w.toNat / 65536 % 256 := by
  simp [byteField, BitVec.extractLsb'_toNat, Nat.shiftRight_eq_div_pow]

theorem immField_toNat (w : Word) : (immField w).toNat = w.toNat / 65536 := by
  have := w.isLt
  simp only [immField, BitVec.extractLsb'_toNat, Nat.shiftRight_eq_div_pow]
  omega

theorem immHighField_toNat (w : Word) : (immHighField w).toNat = w.toNat / 16777216 := by
  have := w.isLt
  simp only [immHighField, BitVec.extractLsb'_toNat, Nat.shiftRight_eq_div_pow]
  omega

/-! ### Encoded words as numbers (R82) -/

theorem encodeN_toNat (opc : Byte) : (encodeN opc).toNat = opc.toNat := by
  have := opc.isLt
  simp only [encodeN, BitVec.toNat_setWidth]
  omega

theorem append_toNat {m n : Nat} (x : BitVec m) (y : BitVec n) : (x ++ y).toNat = x.toNat * 2 ^ n + y.toNat := by
  rw [BitVec.toNat_append, ← Nat.shiftLeft_add_eq_or_of_lt y.isLt, Nat.shiftLeft_eq]

theorem encodeB_toNat (opc b : Byte) : (encodeB opc b).toNat = opc.toNat + 65536 * b.toNat := by
  simp only [encodeB, append_toNat, BitVec.toNat_ofNat]
  omega

theorem encodeH_toNat (opc : Byte) (h : Half) : (encodeH opc h).toNat = opc.toNat + 65536 * h.toNat := by
  simp only [encodeH, append_toNat, BitVec.toNat_ofNat]
  omega

/-! ### Each format of the decoder (R74, R78) -/

theorem decodeN_ok_iff {w : Word} {i j : Instr} :
    decodeN w i = .ok j ↔ w.toNat / 256 = 0 ∧ i = j := by
  have hr := rsvField_toNat w
  have hi := immField_toNat w
  simp only [decodeN, ne_eq, ← BitVec.toNat_inj, hr, hi, show (0 : Byte).toNat = 0 from rfl, show (0 : Half).toNat = 0 from rfl]
  split
  · simp; omega
  · split
    · simp; omega
    · simp; omega

theorem decodeB_ok_iff {w : Word} {f : Byte → Instr} {j : Instr} :
    decodeB w f = .ok j ↔ w.toNat / 256 % 256 = 0 ∧ w.toNat / 16777216 = 0 ∧ f (byteField w) = j := by
  have hr := rsvField_toNat w
  have hi := immHighField_toNat w
  simp only [decodeB, ne_eq, ← BitVec.toNat_inj, hr, hi, show (0 : Byte).toNat = 0 from rfl]
  split
  · simp; omega
  · split
    · simp; omega
    · next h1 h2 => simp [Decidable.not_not.1 h1, Decidable.not_not.1 h2]

theorem decodeH_ok_iff {w : Word} {f : Half → Instr} {j : Instr} :
    decodeH w f = .ok j ↔ w.toNat / 256 % 256 = 0 ∧ f (immField w) = j := by
  have hr := rsvField_toNat w
  simp only [decodeH, ne_eq, ← BitVec.toNat_inj, hr, show (0 : Byte).toNat = 0 from rfl]
  split
  · simp; omega
  · simp; omega

end Sys2Proof
end

