-- ==== Sys2Proof/Laws/Exec.lean ====
section
/-! SUPPORT. What a command can do, said once: `exec` always answers a next state, the record of an error while busy and the
command's own effect otherwise. -/

namespace Sys2Proof.Machine

/-- `raise CmdError(code)` as the claims write it (R137). -/
theorem cmdError_eq_recorded (c : ErrCode) (s : State) : cmdError c s = recorded c s := rfl

theorem State.busy_iff (s : State) : s.busy = true ↔ s.fsm ≠ .awake := by
  simp [State.busy]

theorem State.not_busy_iff (s : State) : s.busy = false ↔ s.fsm = .awake := by
  simp [State.busy]

theorem whenIdle_awake (f : State → State) {s : State} (h : s.fsm = .awake) : whenIdle f s = .next (f s) := by
  simp [whenIdle, State.busy, h]

theorem whenIdle_busy (f : State → State) {s : State} (h : s.fsm ≠ .awake) :
    whenIdle f s = .next (recorded .busy s) := by
  simp [whenIdle, State.busy, h, cmdError_eq_recorded]

/-- The effect of each command outside a sleep. -/
def awakeEffect : Instr → State → State
  | .crcInit, s => { s with crc := 0 }
  | .crcByte b, s => feedCrc b s
  | .crcVerify h, s => { s with matched := s.crc == h }
  | .frmStart, s => { s with frmLen := 0, crc := 0 }
  | .frmByte b, s => appendAll [b] (feedCrc b s)
  | .fenc, s => encodeReading s
  | .frmFixed, s =>
    appendAll [intByte s.opnd, fracByte s.opnd]
      (feedCrc (fracByte s.opnd) (feedCrc (intByte s.opnd) (encodeReading s)))
  | .frmCrc, s => if s.cfgTxtMode then s else appendAll [lowByte s.crc, highByte s.crc] s
  | .frmRaw b, s => appendAll [b] s
  | .frmDec2 b, s => appendAll (dec2 b) s
  | .frmDec b, s => appendAll (dec b) s
  | .slpInit, s => slpInit s
  | .slpSleep h, s => if s.init then acceptSleep h s else cmdError .notInit s

/-- Outside a sleep every command runs (R80). -/
theorem exec_awake (i : Instr) {s : State} (h : s.fsm = .awake) : exec i s = .next (awakeEffect i s) := by
  cases i <;> simp only [exec, execCrcInit, execCrcByte, execCrcVerify, execFrmStart, execFrmByte, execFenc, execFrmFixed, execFrmCrc,
    execFrmRaw, execFrmDec2, execFrmDec, execSlpInit, execSlpSleep] <;> rw [whenIdle_awake _ h] <;> try rfl
  case frmFixed =>
    simp only [appendPayload, awakeEffect, appendAll_cons, appendAll_nil]
    rw [feedCrc_append]

/-- During a sleep every command is rejected with `ERR_BUSY` (R138). -/
theorem exec_busy (i : Instr) {s : State} (h : s.fsm ≠ .awake) : exec i s = .next (recorded .busy s) := by
  cases i <;> simp only [exec, execCrcInit, execCrcByte, execCrcVerify, execFrmStart, execFrmByte, execFenc, execFrmFixed, execFrmCrc,
    execFrmRaw, execFrmDec2, execFrmDec, execSlpInit, execSlpSleep] <;> rw [whenIdle_busy _ h]

/-- `exec` in one line. -/
theorem exec_eq (i : Instr) (s : State) :
    exec i s = .next (if s.fsm = .awake then awakeEffect i s else recorded .busy s) := by
  split
  · next h => exact exec_awake i h
  · next h => exact exec_busy i h

/-- A command's answer is one of two: its effect outside a sleep, or the record of `ERR_BUSY`. -/
theorem exec_cases {i : Instr} {s t : State} (h : exec i s = .next t) :
    (s.fsm = .awake ∧ t = awakeEffect i s) ∨ (s.fsm ≠ .awake ∧ t = recorded .busy s) := by
  rw [exec_eq] at h
  split at h <;> cases h
  · exact .inl ⟨‹_›, rfl⟩
  · exact .inr ⟨‹_›, rfl⟩

/-- Commands one after another. -/
theorem execAll_append (is js : List Instr) {s t : State} (h : execAll is s = .next t) :
    execAll (is ++ js) s = execAll js t := by
  induction is generalizing s with
  | nil => cases h; rfl
  | cons i is ih =>
    simp only [execAll, List.cons_append] at h ⊢
    rw [exec_eq] at h ⊢
    exact ih h

theorem execAll_cons_awake (i : Instr) (is : List Instr) {s : State} (h : s.fsm = .awake) :
    execAll (i :: is) s = execAll is (awakeEffect i s) := by
  simp [execAll, exec_awake i h]

end Sys2Proof.Machine
end

