-- ==== Sys2Proof/Laws/PerInstr.lean ====
section
/-! SUPPORT. The word of every instruction obeys its format (R73 to R75, R82): the opcode of its row, the reserved byte 0, and
nothing outside its operand field. -/

namespace Sys2Proof

/-- The fields of an encoded word: `opc` is the low byte of the row's match (R77), `rsv` is 0, format N has `imm` = 0 and
format B has `word[31:24]` = 0 (R74). -/
def Laws.EncodeFormat.Statement (i : Instr) : Prop :=
  (encode i).toNat % 256 = (maskMatch i.mnemonic).2.toNat ∧ (encode i).toNat / 256 % 256 = 0
    ∧ (i.mnemonic.format = .n → (encode i).toNat / 65536 = 0)
    ∧ (i.mnemonic.format = .b → (encode i).toNat / 16777216 = 0)

theorem Laws.EncodeFormat.ofB {i : Instr} {opc b : Byte} (he : encode i = encodeB opc b)
    (hm : (maskMatch i.mnemonic).2.toNat = opc.toNat) (hf : i.mnemonic.format = .b) : Laws.EncodeFormat.Statement i := by
  have := opc.isLt
  have := b.isLt
  simp only [Statement, he, encodeB_toNat, hm, hf]
  refine ⟨?_, ?_, fun hn => ?_, fun _ => ?_⟩
  · omega
  · omega
  · cases hn
  · omega

theorem Laws.EncodeFormat.ofH {i : Instr} {opc : Byte} {h : Half} (he : encode i = encodeH opc h)
    (hm : (maskMatch i.mnemonic).2.toNat = opc.toNat) (hf : i.mnemonic.format = .h) : Laws.EncodeFormat.Statement i := by
  have := opc.isLt
  have := h.isLt
  simp only [Statement, he, encodeH_toNat, hm, hf]
  refine ⟨?_, ?_, fun hn => ?_, fun hb => ?_⟩
  · omega
  · omega
  · cases hn
  · cases hb

theorem Laws.EncodeFormat.crcInit : Laws.EncodeFormat.Statement .crcInit := by unfold Statement; decide
theorem Laws.EncodeFormat.crcByte (b : Byte) : Laws.EncodeFormat.Statement (.crcByte b) := ofB rfl rfl rfl
theorem Laws.EncodeFormat.crcVerify (h : Half) : Laws.EncodeFormat.Statement (.crcVerify h) := ofH rfl rfl rfl
theorem Laws.EncodeFormat.frmStart : Laws.EncodeFormat.Statement .frmStart := by unfold Statement; decide
theorem Laws.EncodeFormat.frmByte (b : Byte) : Laws.EncodeFormat.Statement (.frmByte b) := ofB rfl rfl rfl
theorem Laws.EncodeFormat.fenc : Laws.EncodeFormat.Statement .fenc := by unfold Statement; decide
theorem Laws.EncodeFormat.frmFixed : Laws.EncodeFormat.Statement .frmFixed := by unfold Statement; decide
theorem Laws.EncodeFormat.frmCrc : Laws.EncodeFormat.Statement .frmCrc := by unfold Statement; decide
theorem Laws.EncodeFormat.frmRaw (b : Byte) : Laws.EncodeFormat.Statement (.frmRaw b) := ofB rfl rfl rfl
theorem Laws.EncodeFormat.frmDec2 (b : Byte) : Laws.EncodeFormat.Statement (.frmDec2 b) := ofB rfl rfl rfl
theorem Laws.EncodeFormat.frmDec (b : Byte) : Laws.EncodeFormat.Statement (.frmDec b) := ofB rfl rfl rfl
theorem Laws.EncodeFormat.slpInit : Laws.EncodeFormat.Statement .slpInit := by unfold Statement; decide
theorem Laws.EncodeFormat.slpSleep (h : Half) : Laws.EncodeFormat.Statement (.slpSleep h) := ofH rfl rfl rfl

end Sys2Proof
end

