-- ==== Sys2Proof/Laws/Step.lean ====
section
/-! SUPPORT. Everything one step can do: inversion lemmas for a bus access, for an agent's move and for `step`. -/

namespace Sys2Proof.Machine

/-! ### Reads -/

theorem frameRead_keeps (i : Nat) (s : State) : ∃ d, (frameRead i s).2 = { s with draws := d } := by
  unfold frameRead
  split
  · exact ⟨s.draws, rfl⟩
  · split
    · exact ⟨s.draws, rfl⟩
    · exact ⟨s.draws + 1, rfl⟩

theorem frameReads_keeps (n i : Nat) (s : State) : ∃ d, (frameReads n i s).2 = { s with draws := d } := by
  induction n generalizing i s with
  | zero => exact ⟨s.draws, rfl⟩
  | succ n ih =>
    obtain ⟨d, hd⟩ := frameRead_keeps i s
    obtain ⟨d', hd'⟩ := ih (i + 1) (frameRead i s).2
    exact ⟨d', hd'.trans (by rw [hd])⟩

/-- A read changes only the answer and the model's draw counter (R61). -/
theorem windowRead_keeps (off width : Nat) (s : State) :
    ∃ d w, windowRead off width s = { s with draws := d, rdata := w } := by
  unfold windowRead
  split
  · exact ⟨s.draws, _, rfl⟩
  · obtain ⟨d, hd⟩ := frameReads_keeps width (off - Config.frameOffset) s
    exact ⟨d, _, congrArg (answer (wordOfBytes (frameReads width (off - Config.frameOffset) s).1)) hd⟩

/-- A written byte is read without a draw (R57). -/
theorem frameRead_written {i : Nat} {s : State} {b : Byte} (hi : i < 256) (h : s.frameByte i = some b) :
    frameRead i s = (b, s) := by
  simp [frameRead, Config.frameMax, show ¬ 256 ≤ i by omega, h]

/-! ### Register map -/

theorem regAt_offset (r : Reg) : regAt r.offset = some r := by cases r <;> rfl

theorem regAt_some {off : Nat} {r : Reg} (h : regAt off = some r) : off = r.offset := by
  have hp := List.find?_some (p := fun r : Reg => r.offset == off) h
  exact (beq_iff_eq.1 hp).symm

/-! ### One bus access -/

/-- What a write into the register area can do (R61). -/
theorem regWrite_cases {off : Nat} {w : Word} {s t : State} (h : regWrite off w s = .next t) :
    t = s ∨ (∃ i, decode w = .ok i ∧ exec i s = .next t) ∨ t = recorded .illegal s
      ∨ t = { s with opnd := w } ∨ t = writeStatus w s ∨ t = writeCfg w s := by
  unfold regWrite at h
  split at h
  · unfold writeCmd at h
    split at h
    · next i hi => exact .inr (.inl ⟨i, hi, h⟩)
    · cases h; exact .inr (.inr (.inl rfl))
  all_goals cases h; simp

/-- Everything a bus access can do when it answers a next state. -/
theorem busAccess_cases {a : Access} {s t : State} (h : busAccess a s = .next t) :
    t = s ∨ (∃ d w, t = { s with draws := d, rdata := w }) ∨ (∃ i, exec i s = .next t) ∨ t = recorded .illegal s
      ∨ (∃ w, t = { s with opnd := w }) ∨ (∃ w, t = writeStatus w s) ∨ (∃ w, t = writeCfg w s) := by
  cases a with
  | read addr width =>
    simp only [busAccess] at h
    split at h
    · cases h; exact .inl rfl
    · split at h
      · cases h
        exact .inr (.inl (windowRead_keeps _ _ s))
      · cases h
  | write addr width w =>
    simp only [busAccess] at h
    split at h
    · cases h; exact .inl rfl
    · split at h
      · unfold windowWrite at h
        split at h
        · rcases regWrite_cases h with rfl | ⟨i, _, hi⟩ | rfl | rfl | rfl | rfl
          · exact .inl rfl
          · exact .inr (.inr (.inl ⟨i, hi⟩))
          · exact .inr (.inr (.inr (.inl rfl)))
          · exact .inr (.inr (.inr (.inr (.inl ⟨w, rfl⟩))))
          · exact .inr (.inr (.inr (.inr (.inr (.inl ⟨w, rfl⟩)))))
          · exact .inr (.inr (.inr (.inr (.inr (.inr ⟨w, rfl⟩)))))
        · cases h; exact .inl rfl
      · cases h

/-! ### One move and one step -/

/-- The host's move: nothing while it is held or has no access left, else its next access. -/
theorem hostMove_cases {s t : State} (h : hostMove s = .next t) :
    (t = s ∧ (s.fsm ≠ .awake ∨ s.hostOps = [])) ∨
      (s.fsm = .awake ∧ ∃ a ops, s.hostOps = a :: ops ∧ busAccess a { s with hostOps := ops } = .next t) := by
  unfold hostMove at h
  by_cases hb : s.fsm = .awake
  · simp only [State.hostHeld, (State.not_busy_iff s).2 hb, Bool.false_eq_true, if_false] at h
    cases ho : s.hostOps with
    | nil => rw [ho] at h; cases h; exact .inl ⟨rfl, .inr rfl⟩
    | cons a ops => rw [ho] at h; exact .inr ⟨hb, a, ops, rfl, h⟩
  · simp only [State.hostHeld, (State.busy_iff s).2 hb, if_true] at h
    cases h
    exact .inl ⟨rfl, .inl hb⟩

/-- Everything one step can do when it answers a next state: wait, or let the next scheduled agent move, with the hold of
`rst_n` on the result. -/
theorem step_cases {s t : State} (h : step s = .next t) :
    (s.sched = [] ∧ s.fsm ≠ .forcedSleep ∧ t = s) ∨
      ∃ e rest u, s.sched = e :: rest ∧ agentMove e { s with sched := rest } = .next u
        ∧ t = if s.rstN then u else resetBlock u := by
  unfold step at h
  cases hs : s.sched with
  | nil =>
    rw [hs] at h
    simp only [noEvent] at h
    split at h <;> cases h
    exact .inl ⟨rfl, ‹_›, rfl⟩
  | cons e rest =>
    rw [hs] at h
    simp only [takeEvent] at h
    refine .inr ⟨e, rest, ?_⟩
    split at h
    · next hr => exact ⟨t, rfl, h, by rw [if_pos hr]⟩
    · next hr =>
      cases hm : agentMove e { s with sched := rest } with
      | next u =>
        rw [hm] at h
        cases h
        exact ⟨u, rfl, rfl, by rw [if_neg hr]⟩
      | fault r => rw [hm] at h; cases h
      | refused r => rw [hm] at h; cases h

/-- A step with `rst_n` high is the move of the scheduled agent. -/
theorem step_cons {s : State} {e : Event} {rest : List Event} (hs : s.sched = e :: rest) (hr : s.rstN = true) :
    step s = agentMove e { s with sched := rest } := by
  simp [step, hs, takeEvent, hr]

theorem resetBlock_idem (s : State) : resetBlock (resetBlock s) = resetBlock s := rfl

/-- No command is refused. -/
theorem exec_not_refused (i : Instr) (s : State) (r : Refusal) : exec i s ≠ .refused r := by
  rw [exec_eq]; intro h; cases h

/-! ### Runs -/

/-- One more step of a run, for any machine behind the host's interface. -/
theorem host_run_succ (M : Host.Core) (n : Nat) (s t : M.State) :
    M.run (n + 1) s = .next t ↔ ∃ u, M.step s = .next u ∧ M.run n u = .next t := by
  simp only [Host.Core.run]
  cases M.step s <;> simp

/-- A run that answers a next state is a step and a shorter run. -/
theorem run_succ (n : Nat) (s t : State) :
    Sys2Proof.core.run (n + 1) s = .next t ↔ ∃ u, step s = .next u ∧ Sys2Proof.core.run n u = .next t :=
  host_run_succ Sys2Proof.core n s t

/-! ### Infinite runs -/

@[simp] theorem ticksBefore_zero (σ : Nat → Event) : ticksBefore σ 0 = 0 := rfl

theorem ticksBefore_tick {σ : Nat → Event} {n : Nat} (h : σ n = .tick) : ticksBefore σ (n + 1) = ticksBefore σ n + 1 := by
  simp [ticksBefore, h]

theorem ticksBefore_other {σ : Nat → Event} {n : Nat} (h : σ n ≠ .tick) : ticksBefore σ (n + 1) = ticksBefore σ n := by
  simp [ticksBefore, h]

theorem ticksBefore_succ_le (σ : Nat → Event) (n : Nat) : ticksBefore σ (n + 1) ≤ ticksBefore σ n + 1 := by
  simp only [ticksBefore]
  split <;> omega

theorem ticksBefore_mono (σ : Nat → Event) {a b : Nat} (h : a ≤ b) : ticksBefore σ a ≤ ticksBefore σ b := by
  induction h with
  | refl => exact Nat.le_refl _
  | step _ ih => exact ih.trans (Nat.le_add_right _ _)

/-- While `rst_n` is high, an event of an infinite run is the move of its agent. -/
theorem InfiniteRun.move {σ : Nat → Event} {r : Nat → State} (h : InfiniteRun σ r) {n : Nat} (hr : (r n).rstN = true) :
    agentMove (σ n) { r n with sched := [] } = .next (r (n + 1)) :=
  (step_cons (s := { r n with sched := [σ n] }) rfl hr).symm.trans (h n)

end Sys2Proof.Machine
end

