-- ==== Sys2Proof/Tests/Slice0.lean ====
section
/-! SUPPORT. Tests on small states: the checks of WellFormed, one word of every instruction written out from R73 to R76, vectors
of spec/95_test_vectors.md (named in each docstring), and a witness for the hypotheses of every statement that has some. -/

namespace Sys2Proof.Tests

open Sys2Proof Sys2Proof.Machine

/-- One component of the state an outcome leaves, if it is a next state. -/
def seen {α : Type} (f : State → α) : Host.Outcome State Fault Refusal → Option α
  | .next s => some (f s)
  | .fault _ => none
  | .refused _ => none

/-- A word from its three fields `imm`, `rsv` and `opc` (R73). -/
def fields (imm : Half) (rsv opc : Byte) : Word := (imm ++ rsv) ++ opc

/-- Reset state with the sleep unit initialised, as after `SLP_INIT` (V-T1). -/
def booted : State := { State.reset with init := true, wdtIe := true, pdEn := true, adcEn := false }

/-- `booted` with a sleep of `h` cycles accepted on the normal path (R127). -/
def armed (h : Half) : State :=
  { booted with cycles := h, ainFloat := true, fsm := .armed, history := [.wdtRestart] }

/-- `armed h` in power-down (R129). -/
def asleep (h : Half) : State := { armed h with bodOff := true, pdReq := true, fsm := .sleeping }

/-- `booted` with the forced path taken (R127). -/
def forced (h : Half) : State := { booted with cycles := h, irqDis := true, bodOff := true, pdReq := true, fsm := .forcedSleep }

/-- A frame of two bytes, `4E 31`. -/
def twoBytes : State := { State.reset with frame := [(0, 0x4E), (1, 0x31)], frameWritten := 3, frmLen := 2 }

/-! ### WellFormed: every check refuses an ill-formed line (R81) -/

theorem test_wf_n : CmdLine.wellFormed ⟨.fenc, none⟩ = true ∧ CmdLine.wellFormed ⟨.fenc, some 0⟩ = false := by decide

theorem test_wf_b : CmdLine.wellFormed ⟨.frmByte, some 255⟩ = true ∧ CmdLine.wellFormed ⟨.frmByte, some 256⟩ = false
    ∧ CmdLine.wellFormed ⟨.frmByte, none⟩ = false := by decide

theorem test_wf_h : CmdLine.wellFormed ⟨.slpSleep, some 65535⟩ = true ∧ CmdLine.wellFormed ⟨.slpSleep, some 65536⟩ = false
    ∧ CmdLine.wellFormed ⟨.slpSleep, none⟩ = false := by decide

theorem test_host_line_wf : HostLine.wellFormed (.wr .opnd 4294967296) = false ∧ HostLine.wellFormed (.rdb 256) = false
    ∧ HostLine.wellFormed (.fixed ⟨32768, 0⟩) = false ∧ HostLine.wellFormed (.bytes [1, 256]) = false
    ∧ HostLine.wellFormed (.text ['é']) = false ∧ assembleProgram 0 [.clrstat, .crcs [256]] = none := by decide

/-! ### Decoding: words written out from the fields and opcodes of R73 to R76 -/

theorem test_decode_crcInit : decode (fields 0b0000000000000000 0b00000000 0b00000001) = .ok .crcInit := by decide
theorem test_decode_crcByte : decode (fields 0b0000000000000001 0b00000000 0b00000010) = .ok (.crcByte 0x01) := by decide
theorem test_decode_crcVerify : decode (fields 0b0001000000100001 0b00000000 0b00000011) = .ok (.crcVerify 0x1021) := by
  decide
theorem test_decode_frmStart : decode (fields 0b0000000000000000 0b00000000 0b00010000) = .ok .frmStart := by decide
theorem test_decode_frmByte : decode (fields 0b0000000001001110 0b00000000 0b00010001) = .ok (.frmByte 0x4E) := by decide
theorem test_decode_fenc : decode (fields 0b0000000000000000 0b00000000 0b00010010) = .ok .fenc := by decide
theorem test_decode_frmFixed : decode (fields 0b0000000000000000 0b00000000 0b00010011) = .ok .frmFixed := by decide
theorem test_decode_frmCrc : decode (fields 0b0000000000000000 0b00000000 0b00010100) = .ok .frmCrc := by decide
theorem test_decode_frmRaw : decode (fields 0b0000000010101010 0b00000000 0b00010101) = .ok (.frmRaw 0xAA) := by decide
theorem test_decode_frmDec2 : decode (fields 0b0000000000010011 0b00000000 0b00010110) = .ok (.frmDec2 19) := by decide
theorem test_decode_frmDec : decode (fields 0b0000000000110000 0b00000000 0b00010111) = .ok (.frmDec 0x30) := by decide
theorem test_decode_slpInit : decode (fields 0b0000000000000000 0b00000000 0b00100000) = .ok .slpInit := by decide
theorem test_decode_slpSleep : decode (fields 0b1111111111111111 0b00000000 0b00100001) = .ok (.slpSleep 65535) := by decide

/-- The words of spec/95_test_vectors.md 2.4 (V-E1, V-E4, V-E6, V-E8, V-E11, V-E12) and what the assembler makes of R82's
examples. -/
theorem test_decode_illegal :
    decode 0x00000000 = .error (.unassignedOpcode 0x00) ∧ decode 0x00000101 = .error (.reservedNonzero 0x01)
      ∧ decode 0x01010002 = .error (.immHighNonzero 0x01) ∧ decode 0x00000004 = .error (.unassignedOpcode 0x04)
      ∧ decode 0x00000120 = .error (.reservedNonzero 0x01) ∧ decode 0x000000FF = .error (.unassignedOpcode 0xFF) := by decide

/-- R81: a text line, its word and back. -/
theorem test_assemble_text :
    (parseLine ['F', 'R', 'M', '_', 'D', 'E', 'C', '2', ' ', '1', '9']).bind assemble = some 0x00130016
      ∧ (parseLine ['F', 'R', 'M', '_', 'R', 'A', 'W', ' ', '\'', '.', '\'']).bind assemble = some 0x002E0015
      ∧ (parseLine ['F', 'R', 'M', '_', 'D', 'E', 'C', '2', ' ', '2', '5', '6']).bind assemble = none := by decide +kernel

/-- V-S5 and the pseudo-instruction `FIXED 23.47` (R83). -/
theorem test_decimal_reading : Decimal.q ⟨2347, 2⟩ = 0x00177852 ∧ Decimal.q ⟨-15, 1⟩ = -98304 := by decide

/-! ### CRC commands -/

/-- V-C4 -/
theorem test_crcInit : seen (fun t => (t.crc, t.matched)) (exec .crcInit { State.reset with crc := 0x1373, matched := true })
    = some (0, true) := by decide

/-- V-C1 -/
theorem test_crcByte : seen State.crc (exec (.crcByte 0x80) { State.reset with crc := 0xFFFF }) = some 0x7078
    ∧ seen State.crc (exec (.crcByte 0x01) State.reset) = some 0x1021 := by decide

/-- V-C3, V-C6 -/
theorem test_crc16 : crc16 [0x4E, 0x31] = 0x08B1 ∧ crc16 [0x31, 0x32, 0x33, 0x34, 0x35, 0x36, 0x37, 0x38, 0x39] = 0x31C3 := by decide +kernel

/-- V-C7 -/
theorem test_crcVerify : seen State.matched (exec (.crcVerify 0x1021) { State.reset with crc := 0x1021 }) = some true
    ∧ seen State.matched (exec (.crcVerify 0x1020) { State.reset with crc := 0x1021, matched := true }) = some false := by
  decide

/-! ### Frame commands -/

/-- V-B4 -/
theorem test_frmStart : seen (fun t => (t.crc, t.frmLen, t.frmOvf, t.frame))
    (exec .frmStart { twoBytes with crc := 0x1021, frmOvf := true }) = some (0, 0, true, [(0, 0x4E), (1, 0x31)]) := by decide

/-- V-C1: the byte enters the CRC and the frame; R98: on a full buffer it still enters the CRC. -/
theorem test_frmByte : seen (fun t => (t.crc, t.frmLen, t.frameByte 2)) (exec (.frmByte 0x10) twoBytes)
      = some (0x1231, 3, some 0x10)
    ∧ seen (fun t => (t.crc, t.frmLen, t.frmOvf)) (exec (.frmByte 0x10) { State.reset with frmLen := 256 })
      = some (0x1231, 256, true) := by decide

/-- V-F1a, V-F2 -/
theorem test_fenc : seen (fun t => (fencResWord t, t.fencRng)) (exec .fenc { State.reset with opnd := 0x00177852 })
      = some (0x00002F17, false)
    ∧ seen (fun t => (fencResWord t, t.fencRng)) (exec .fenc { State.reset with opnd := 0xFFFE8000 })
      = some (0x0000CEFF, true) := by decide

/-- V-F11, V-F12, V-F16 -/
theorem test_fenc_extremes : seen (fun t => (fencResWord t, t.fencRng)) (exec .fenc { State.reset with opnd := 0x7FFFFFFF })
      = some (0x000064FF, true)
    ∧ seen (fun t => (fencResWord t, t.fencRng)) (exec .fenc { State.reset with opnd := 0x80000000 })
      = some (0x00000000, true)
    ∧ seen (fun t => (fencResWord t, t.fencRng)) (exec .fenc { State.reset with opnd := 0xFFFFFFFF })
      = some (0x00000000, false) := by decide

/-- The last step of V-B1 (P6). -/
theorem test_frmFixed : seen (fun t => (t.crc, t.frmLen, t.frmOvf, t.frame))
    (exec .frmFixed { State.reset with opnd := 0xFFFE8000, frmLen := 255 }) = some (0x3B7D, 256, true, [(255, 0xFF)]) := by
  decide +kernel

/-- V-B5, V-B6 -/
theorem test_frmCrc : seen State.frame (exec .frmCrc { State.reset with crc := 0x1021 }) = some [(0, 0x21), (1, 0x10)]
    ∧ seen (fun t => (t.crc, t.frmLen)) (exec .frmCrc { State.reset with crc := 0x1021, cfgTxtMode := true, frmLen := 1 })
      = some (0x1021, 1) := by decide

/-- V-B5 -/
theorem test_frmRaw : seen (fun t => (t.crc, t.frame)) (exec (.frmRaw 0x41) { State.reset with crc := 0x1021 })
    = some (0x1021, [(0, 0x41)]) := by decide

/-- V-D1, V-B2 -/
theorem test_frmDec2 : seen State.frame (exec (.frmDec2 3) State.reset) = some [(0, 0x30), (1, 0x33)]
    ∧ seen (fun t => (t.frame, t.frmOvf)) (exec (.frmDec2 123) { State.reset with frmLen := 255 })
      = some ([(255, 0x31)], true) := by decide

/-- V-D1 -/
theorem test_frmDec : seen State.frame (exec (.frmDec 3) State.reset) = some [(0, 0x33)]
    ∧ seen State.frame (exec (.frmDec 100) State.reset) = some [(0, 0x31), (1, 0x30), (2, 0x30)] := by decide

/-! ### Sleep -/

/-- V-T1, V-R4 -/
theorem test_slpInit : seen (fun t => (outWord t, statusWord t)) (exec .slpInit State.reset) = some (0x00000003, 0x00000002)
    ∧ seen statusWord (exec .slpInit booted) = some 0x0000400A := by decide

/-- V-R1, V-T6 and the acceptance of P3. -/
theorem test_slpSleep : seen (fun t => (statusWord t, t.cycles)) (exec (.slpSleep 1) State.reset) = some (0x00003008, 0)
    ∧ seen (fun t => (statusWord t, outWord t, t.cycles)) (exec (.slpSleep 5) { booted with vlow := true })
      = some (0x00000303, 0x00000073, 5)
    ∧ seen (fun t => (statusWord t, outWord t, t.ticks)) (exec (.slpSleep 3) { booted with ticks := 2 })
      = some (0x00000103, 0x0000000B, 0) := by decide

/-- V-T8; R121: a tick out of power-down. -/
theorem test_tick : (tick { booted with ticks := 0xFFFF }).ticks = 0 ∧ (tick State.reset).ticks = 0
    ∧ (outWord (tick (asleep 3)), (tick (asleep 3)).fsm) = (0x0000000B, .armed) := by decide

/-- V-T4, V-T5 -/
theorem test_block : (outWord (blockStep (armed 0)), statusWord (blockStep (armed 0))) = (0x0000000F, 0x00000002)
    ∧ (blockStep (armed 1)).fsm = .sleeping := by decide

/-! ### Bus -/

/-- V-M2, V-M3, V-M7 -/
theorem test_bus_errors : busAccess (.read 0x008 1) State.reset = .fault (.busError 0x008)
    ∧ busAccess (.read 0x00A 4) State.reset = .fault (.busError 0x00A)
    ∧ busAccess (.write 0x000 2 0x0001) State.reset = .fault (.busError 0x000) := ⟨rfl, rfl, rfl⟩

/-- As V-M8 and V-M13: little-endian, and the frame area ignores writes. -/
theorem test_bus_frame : seen State.rdata (busAccess (.read 0x100 2) twoBytes) = some 0x0000314E
    ∧ busAccess (.write 0x100 1 0x55) twoBytes = .next twoBytes := ⟨by decide, rfl⟩

/-- V-R5, V-R6: a second master during a sleep. -/
theorem test_second_master : seen statusWord (busAccess (.write 0x000 4 0x00000001) (armed 1)) = some 0x0000210B
    ∧ seen statusWord (busAccess (.write 0x000 4 0x00000000) (armed 1)) = some 0x0000110B := by decide

/-- V-F19 -/
theorem test_clrstat : seen statusWord (busAccess (wrAccess 0 .status 0x38) { State.reset with fencRng := true, frmOvf := true })
    = some 0 := by decide

/-- A command placed by `withFetchWord` runs in the next step, held host or not. -/
theorem test_fetch : seen (fun t => t.init) (step (State.reset.withFetchWord 32 0x00000020)) = some true
    ∧ seen (fun t => (t.cmdErr, t.errCode)) (step ((armed 1).withFetchWord 32 0x00000020)) = some (true, .busy) := by decide

/-! ### Witnesses: states and operands that meet the hypotheses of the statements -/

/-- EncodeOfDecode, DisassembleThenAssemble: a legal word of each format. -/
theorem witness_legal_words : decode 0x00000012 = .ok .fenc ∧ decode 0x00FF0016 = .ok (.frmDec2 255)
    ∧ decode 0xC4710003 = .ok (.crcVerify 0xC471) := by decide

/-- DecodeFollowsTable: a word that matches a row, and one that matches none. -/
theorem witness_DecodeFollowsTable : rowMatches 0xFFFF0021 .slpSleep = true ∧ rowMatches 0x00000022 .slpSleep = false := by decide

/-- IllegalWords: an illegal word. -/
theorem witness_IllegalWords : decode 0x00010014 = .error (.immNonzero 1) := by decide

/-- AssembledWord: both clauses, at the edge of a range. -/
theorem witness_AssembledWord : CmdLine.wellFormed ⟨.crcVerify, some 65535⟩ = true
    ∧ CmdLine.wellFormed ⟨.crcVerify, some 65536⟩ = false := by decide

/-- CrcIsLinear: sequences of equal length (V-C8). -/
theorem witness_CrcIsLinear : ([0x01, 0x00] : List Byte).length = ([0x00, 0x02] : List Byte).length := rfl

/-- CrcDetectsSingleBitFlips: the last bit of the last byte (V-C9). -/
theorem witness_CrcDetectsSingleBitFlips : 1 < ([0x01, 0x02] : List Byte).length ∧ 7 < 8 := by decide

/-- Every command statement: a state outside a sleep, in either mode of `FRM_CRC`, and one inside. The first also meets the
premises of CrcVerifyDecidesChecksum, EmptyFrame and GhostChannel. -/
theorem witness_command_states : State.reset.fsm = .awake ∧ State.reset.cfgTxtMode = false ∧ State.reset.opnd = 0
    ∧ { State.reset with cfgTxtMode := true }.cfgTxtMode = true ∧ (armed 1).fsm ≠ .awake := by decide

/-- Every command statement: a word with the opcode and a bit that the mask fixes otherwise. -/
theorem witness_reserved_bits :
    ([0x01, 0x10, 0x12, 0x13, 0x14, 0x20] : List Word).all
        (fun p => (p ||| 0x80000000) &&& 0xFF == p && (p ||| 0x80000000) &&& 0xFFFFFFFF != p) = true
      ∧ ([0x02, 0x11, 0x15, 0x16, 0x17] : List Word).all
        (fun p => (p ||| 0x01000000) &&& 0xFF == p && (p ||| 0x01000000) &&& 0xFF00FFFF != p) = true
      ∧ ([0x03, 0x21] : List Word).all
        (fun p => (p ||| 0x00000100) &&& 0xFF == p && (p ||| 0x00000100) &&& 0x0000FFFF != p) = true := by decide

/-- SlpInitCommand and SlpSleepCommand: every clause. -/
theorem witness_sleep_commands : State.reset.init = false ∧ booted.fsm = .awake ∧ booted.init = true
    ∧ booted.cfgFailsafeEn = true ∧ booted.vlow = false ∧ { booted with vlow := true }.vlow = true
    ∧ { booted with cfgFailsafeEn := false }.cfgFailsafeEn = false := by decide

/-- BinaryFrame: the longest frame that fits, 254 payload bytes and the checksum, in the reset state. -/
theorem witness_BinaryFrame : State.reset.fsm = .awake ∧ State.reset.cfgTxtMode = false
    ∧ payloadLength (List.replicate 243 (0x4E : Byte)).length (List.replicate 6 (0 : Byte)).length
        (List.replicate 2 (0 : Word)).length + 2 ≤ 256 := by
  refine ⟨rfl, rfl, ?_⟩
  simp only [List.length_replicate, payloadLength]
  decide

/-- TextFrame: device id and the longest text that fits, 168 node id bytes beside 88. -/
theorem witness_TextFrame : State.reset.fsm = .awake ∧ ([19, 11, 3, 18, 12, 0] : List Byte).length = 6
    ∧ (textBytes (List.replicate 168 0x4E) (List.replicate 6 255) (255, 100) (255, 100) 255).length ≤ 256 := by
  refine ⟨rfl, rfl, ?_⟩
  decide +kernel

/-- ChecksumCoversFrame: commands of every kind the discipline admits, and a body that fills the buffer. -/
theorem witness_ChecksumCoversFrame :
    ([.frmByte 0x4E, .fenc, .frmFixed, .crcVerify 0, .slpInit] : List Instr).all keepsFrameDiscipline = true
      ∧ (∀ h, Instr.slpSleep h ∉ ([.frmByte 0x4E, .fenc, .frmFixed, .crcVerify 0, .slpInit] : List Instr))
      ∧ ((List.replicate 127 Instr.frmFixed).map payloadBytes).sum ≤ 254
      ∧ (List.replicate 127 Instr.frmFixed).all keepsFrameDiscipline = true
      ∧ (∀ h, Instr.slpSleep h ∉ List.replicate 127 Instr.frmFixed) := by
  refine ⟨by decide, by simp, ?_, ?_, ?_⟩
  · rw [List.map_replicate, List.sum_replicate]
    decide
  · rw [List.all_replicate]
    decide
  · intro h hm
    cases List.eq_of_mem_replicate hm

/-- RegisterReads: the first and the last reserved offset. -/
theorem witness_RegisterReads : 0x028 ≤ 0x028 ∧ 0x028 % 4 = 0 ∧ 0x028 ≤ 0x0FC ∧ 0x0FC % 4 = 0 := by decide

/-- WindowDecoding: each clause at the ends of its range, for a window at 512; the three answers. -/
theorem witness_WindowDecoding :
    busAccess (.read 511 4) { State.reset with base := 512 } = .next { State.reset with base := 512 }
      ∧ busAccess (.write 1024 4 1) { State.reset with base := 512 } = .next { State.reset with base := 512 }
      ∧ busAccess (.read (512 + 0x0FF) 4) { State.reset with base := 512 } = .fault (.busError (512 + 0x0FF))
      ∧ busAccess (.read (512 + 0x0FC) 4) { State.reset with base := 512 } = .next { State.reset with base := 512 }
      ∧ busAccess (.read (512 + 0x1FF) 2) { State.reset with base := 512 } = .fault (.busError (512 + 0x1FF))
      ∧ busAccess (.write (512 + 0x1FE) 2 1) { State.reset with base := 512 } = .next { State.reset with base := 512 } :=
  ⟨rfl, rfl, rfl, rfl, rfl, rfl⟩

/-- WindowSideEffects: an answered read of written bytes, and an answered write to another offset. -/
theorem witness_WindowSideEffects :
    seen (fun t => (t.rdata, t.draws)) (busAccess (.read 0x101 1) twoBytes) = some (0x31, 0)
      ∧ busAccess (.write 0x00C 4 0xFFFFFFFF) twoBytes = .next twoBytes ∧ (twoBytes.frameByte 1).isSome = true := by
  refine ⟨by decide, rfl, by decide⟩

/-- The last four bytes of the buffer written, as an overflowing frame leaves them. -/
def lastBytes : State :=
  { State.reset with
    frame := [(252, 0xAA), (253, 0xAA), (254, 0xAA), (255, 0xFF)]
    frameWritten := 0xF#4 ++ 0#252 }

/-- FrameReadsLittleEndian: the bytes of a read of each width, at the start and up to the end of the buffer. -/
theorem witness_FrameReadsLittleEndian :
    twoBytes.frameByte 0 = some 0x4E ∧ twoBytes.frameByte 1 = some 0x31
      ∧ lastBytes.frameByte 252 = some 0xAA ∧ lastBytes.frameByte 253 = some 0xAA ∧ lastBytes.frameByte 254 = some 0xAA
      ∧ lastBytes.frameByte 255 = some 0xFF ∧ 0 % 2 = 0 ∧ 255 % 1 = 0 ∧ 252 % 4 = 0 := by decide +kernel

/-- UnwrittenByteIsDraw: both ends of the buffer. -/
theorem witness_UnwrittenByteIsDraw : State.reset.frameWrittenAt 0 = false ∧ State.reset.frameWrittenAt 255 = false := by decide

/-- ResetInput: reset asserted, and released. -/
theorem witness_ResetInput : { State.reset with sched := [.rstN false] }.sched = [.rstN false]
    ∧ { State.reset with sched := [.rstN true], rstN := false }.rstN = false := by decide

/-- ResetHoldsTheState: an access while `rst_n` is low. -/
theorem witness_ResetHoldsTheState : { State.reset with sched := [.host], rstN := false }.sched ≠ []
    ∧ step { State.reset with sched := [.host], rstN := false } = .next { State.reset with rstN := false } :=
  ⟨by decide, rfl⟩

/-- StepRunsDecodedCommand and StepRunsFetchWord: the host's write and a second master's, of a legal and an illegal word; an access
that is no write to `CMD`; a table word. -/
theorem witness_StepRunsDecodedCommand : decode 0x00000020 = .ok .slpInit
    ∧ decode 0x00000000 = .error (.unassignedOpcode 0) ∧ State.reset.fsm = .awake ∧ State.reset.rstN = true
    ∧ { State.reset with sched := [.host], hostOps := [.read 0x10C 1] }.hostOps = [.read 0x10C 1]
    ∧ { State.reset with sched := [.host], hostOps := [.write 0 4 0x20] }.hostOps = [.write State.reset.base 4 0x20]
    ∧ { armed 1 with sched := [.second (.write 0 4 0x20)] }.sched = [.second (.write (armed 1).base 4 0x20)]
    ∧ decodeTableWord 32 0x00000020 = some .slpInit ∧ decodeTableWord 32 0xFFFF0021 = some (.slpSleep 65535) := by decide

/-- HostIsHeld: a held host, and a second master with a legal and an illegal word. -/
theorem witness_HostIsHeld : (armed 1).fsm ≠ .awake ∧ (armed 1).rstN = true
    ∧ { armed 1 with sched := [.host] }.sched = [.host]
    ∧ { armed 1 with sched := [.second (.write 0 4 0)] }.sched = [.second (.write (armed 1).base 4 0)] := by decide

/-- AccessesInOrder, StepKeepsRecordInv: a step that answers a next state. -/
theorem witness_step : step { State.reset with sched := [.host], hostOps := [.read 0x00C 4] } = .next State.reset := rfl

/-- AccessesInOrder: the environment's moves, a host with no access left, and an empty schedule. -/
theorem witness_environment :
    seen State.vlow (step { State.reset with sched := [.vlow true] }) = some true
      ∧ seen State.vlow (step { State.reset with rstN := false, sched := [.vlow true] }) = some true
      ∧ step { booted with sched := [.rstN true] } = .next booted
      ∧ step { booted with sched := [.host] } = .next booted
      ∧ (armed 1).sched = [] ∧ (armed 1).fsm ≠ .forcedSleep :=
  ⟨by decide, by decide, rfl, rfl, rfl, by decide⟩

/-- TickStep: each clause. -/
theorem witness_TickStep : booted.init = true ∧ booted.irqDis = false ∧ booted.fsm ≠ .sleeping
    ∧ (asleep 1).init = true ∧ (asleep 1).irqDis = false ∧ (asleep 1).fsm = .sleeping
    ∧ State.reset.init = false ∧ (forced 1).irqDis = true := by decide

/-- BlockStep: each clause, at the boundary `ticks` = `cycles`. -/
theorem witness_BlockStep : (armed 0).fsm = .armed ∧ (armed 0).cycles.toNat ≤ (armed 0).ticks.toNat
    ∧ (armed 1).ticks.toNat < (armed 1).cycles.toNat ∧ (asleep 1).fsm ≠ .armed := by decide

/-- FsmTransitions: each transition starts in a state of the invariant and is taken by a step. -/
theorem witness_FsmTransitions :
    SleepInv booted ∧ SleepInv (armed 1) ∧ SleepInv (asleep 1)
      ∧ nextAccess { booted with sched := [.host], hostOps := [cmdAccess 0 (.slpSleep 1)] } = some (cmdAccess 0 (.slpSleep 1))
      ∧ step { armed 1 with sched := [.block] } = .next (asleep 1)
      ∧ seen State.fsm (step { asleep 1 with sched := [.tick] }) = some .armed
      ∧ seen State.fsm (step { forced 1 with sched := [.rstN false] }) = some .awake
      ∧ step { armed 1 with sched := [.tick] } = .next { armed 1 with ticks := 1 } :=
  ⟨by decide, by decide, by decide, by decide, rfl, by decide, by decide, rfl⟩

/-- TicksHaveOneWriter: each of its three writers changes `ticks`. -/
theorem witness_TicksHaveOneWriter :
    seen State.ticks (step { booted with sched := [.tick] }) = some 1
      ∧ seen State.ticks (step { booted with ticks := 2, sched := [.host], hostOps := [cmdAccess 0 (.slpSleep 1)] }) = some 0
      ∧ seen State.ticks (step { booted with ticks := 2, sched := [.rstN false] }) = some 0 := by decide

/-- StickyFlags: every flag set, a step that keeps them, and a step that clears them. -/
theorem witness_StickyFlags :
    step { booted with cmdErr := true, errCode := .busy, frmOvf := true, fencRng := true, sched := [.block] } =
        .next { booted with cmdErr := true, errCode := .busy, frmOvf := true, fencRng := true }
      ∧ step { booted with
          cmdErr := true, errCode := .busy, frmOvf := true, fencRng := true, sched := [.second (.write 8 4 0x38)] } = .next booted :=
  ⟨rfl, rfl⟩

/-- UnitsKeepApart: a command of each unit. -/
theorem witness_UnitsKeepApart : isFrameCommand .fenc = true ∧ isFrameCommand .slpInit = false := by decide

/-- ForcedSleepIsTerminal: a run with every kind of move but reset, and the halt. -/
theorem witness_ForcedSleepIsTerminal :
    (forced 5).irqDis = true ∧ (forced 5).rstN = true ∧ NoReset [.host, .tick, .block, .vlow false, .second (.read 8 4)]
      ∧ seen State.fsm (Sys2Proof.core.run 3 { forced 5 with sched := [.host, .tick, .block] }) = some .forcedSleep
      ∧ (forced 5).sched = [] := by
  refine ⟨rfl, rfl, ?_, by decide, rfl⟩
  intro level
  simp

/-- SleepNeverReturnsEarly, SleepReturnsUnderArmedBound and SleepTraceReturns: a sleep of one cycle that returns. -/
theorem witness_sleep_runs :
    (armed 1).ticks = 0 ∧ NoReset [.block, .tick, .block]
      ∧ Sys2Proof.core.run 3 { armed 1 with sched := [.block, .tick, .block] } =
          .next { armed 1 with ticks := 1, adcEn := true, fsm := .awake }
      ∧ armedBound 0 [.block, .tick] { armed 1 with sched := [.block, .tick, .block] } = true
      ∧ (armed 1).cycles.toNat ≤ ([.block, .tick] : List Event).count .tick
      ∧ sleepTrace (armed 1).cycles.toNat = [.block, .tick, .block] ∧ (armed 1).pdReq = false ∧ (armed 1).bodOff = false := by
  refine ⟨rfl, ?_, rfl, by decide, by decide, by decide, rfl, rfl⟩
  intro level
  simp

/-- The schedule in which the block and the watchdog move in turn. -/
def turns (n : Nat) : Event := if n % 2 = 0 then .block else .tick

/-- The states of the run from `armed 1` under `turns`. -/
def turnState : Nat → State
  | 0 => armed 1
  | n + 1 => if n % 2 = 0 then blockStep (turnState n) else tick (turnState n)

theorem turnState_ready (n : Nat) : (turnState n).rstN = true ∧ (turnState n).sched = [] := by
  induction n with
  | zero => decide
  | succ n ih =>
    unfold turnState
    split
    · simpa using ih
    · simpa using ih

theorem turns_run : InfiniteRun turns turnState := by
  intro n
  obtain ⟨hr, hs⟩ := turnState_ready n
  have he : { turnState n with sched := [] } = turnState n := by rw [← hs]
  rw [step_cons (s := { turnState n with sched := [turns n] }) rfl hr]
  show agentMove (turns n) { turnState n with sched := [] } = _
  rw [he]
  unfold turns
  simp only [turnState]
  split <;> rfl

/-- A block step leaves `ARMED`. -/
theorem turnState_leaves {n : Nat} (hn : n % 2 = 0) (h : (turnState n).fsm = .armed) : (turnState (n + 1)).fsm ≠ .armed := by
  simp only [turnState, hn, if_true, blockStep, h, armedStep]
  split <;> exact Fsm.noConfusion

/-- SleepReturnsUnderFairness: a weakly fair run within the `ARMED` bound, from the acceptance of a sleep of one cycle. -/
theorem witness_SleepReturnsUnderFairness :
    InfiniteRun turns turnState ∧ WeaklyFair turns turnState ∧ ArmedBoundHolds turns turnState
      ∧ (∀ n level, turns n ≠ .rstN level)
      ∧ (turnState 0).fsm = .armed ∧ (turnState 0).ticks = 0 ∧ (turnState 0).init = true ∧ (turnState 0).irqDis = false
      ∧ (turnState 0).rstN = true ∧ (turnState 3).fsm = .awake := by
  refine ⟨turns_run, ⟨fun n _ => ⟨2 * n + 1, by omega, ?_⟩, fun n _ => ⟨2 * n, by omega, ?_⟩⟩, ?_, fun n level => ?_,
    rfl, rfl, rfl, rfl, rfl, rfl⟩
  · simp [turns]
  · simp [turns]
  · intro a b hab _ harm
    have hb : b ≤ a + 1 := by
      by_contra hlt
      by_cases ha : a % 2 = 0
      · exact turnState_leaves ha (harm a (by omega) hab) (harm (a + 1) (by omega) (by omega))
      · exact turnState_leaves (n := a + 1) (by omega) (harm (a + 1) (by omega) (by omega)) (harm (a + 2) (by omega) (by omega))
    have h2 := ticksBefore_succ_le turns a
    have h3 := ticksBefore_succ_le turns (a + 1)
    have h4 := ticksBefore_mono turns (show b + 1 ≤ a + 1 + 1 by omega)
    show _ < 65536 - 1
    omega
  · unfold turns
    split <;> simp

/-- StepKeepsFrameInv: a state with two frame bytes, and its step. -/
theorem witness_StepKeepsFrameInv :
    FrameInv { twoBytes with sched := [.tick] } ∧ step { twoBytes with sched := [.tick] } = .next twoBytes := by
  refine ⟨⟨rfl, by decide, fun i hi hw => ?_, fun i hi => ?_⟩, rfl⟩
  · have h : i < 2 := by
      by_contra hn
      have h2 : (3#256).getLsbD i = true := hw
      rw [show (3#256) = BitVec.setWidth 256 (3#2) from by decide, BitVec.getLsbD_setWidth] at h2
      simp [BitVec.getLsbD_of_ge (3#2) i (by omega)] at h2
    interval_cases i <;> rfl
  · have h : i < 2 := hi
    interval_cases i <;> rfl

/-- StepKeepsSleepInv: a sleeping unit, and its wake. -/
theorem witness_StepKeepsSleepInv :
    SleepInv (asleep 2) ∧ seen State.fsm (step { asleep 2 with sched := [.tick] }) = some .armed := by decide

/-- StepKeepsRecordInv: an error on record, reset held low, and an aligned base. -/
theorem witness_StepKeepsRecordInv :
    ErrorInv { State.reset with cmdErr := true, errCode := .illegal } ∧ ResetInv { State.reset with rstN := false }
      ∧ BaseInv { State.reset with base := 1024 } := by decide

end Sys2Proof.Tests
end

section
/-! SUPPORT. O51: each command keeps to its own unit. A unit's footprint is the set of fields its commands may write;
`restore…` puts these fields of an earlier state back, so that a command of the unit leaves nothing else to tell the states
apart. -/

namespace Sys2Proof.Machine

/-- `t` with the footprint of the frame unit as it is in `s`: `crc`, the buffer, `FENC_RES`, its two flags, the error record. -/
def restoreFrameUnit (s t : State) : State :=
  { t with
    crc := s.crc, frame := s.frame, frameWritten := s.frameWritten, frmLen := s.frmLen, frmOvf := s.frmOvf
    fencInt := s.fencInt, fencFrac := s.fencFrac, fencRng := s.fencRng, cmdErr := s.cmdErr, errCode := s.errCode }

/-- `t` with the footprint of the CRC unit as it is in `s`: `crc`, `match`, the error record. -/
def restoreCrcUnit (s t : State) : State :=
  { t with crc := s.crc, matched := s.matched, cmdErr := s.cmdErr, errCode := s.errCode }

/-- `t` with the footprint of the sleep unit as it is in `s`: its state, its outputs, the pulses, the error record. -/
def restoreSleepUnit (s t : State) : State :=
  { t with
    init := s.init, fsm := s.fsm, ticks := s.ticks, cycles := s.cycles, wdtIe := s.wdtIe, pdEn := s.pdEn
    adcEn := s.adcEn, ainFloat := s.ainFloat, pdReq := s.pdReq, bodOff := s.bodOff, irqDis := s.irqDis
    history := s.history, cmdErr := s.cmdErr, errCode := s.errCode }

/-- Appends lie within the footprint of the frame unit (R98). -/
theorem restoreFrameUnit_appendAll (s t : State) (bs : List Byte) :
    restoreFrameUnit s (appendAll bs t) = restoreFrameUnit s t := by
  have h := congrArg (restoreFrameUnit s) (appendAll_frame bs t)
  exact h

theorem restoreFrameUnit_awakeEffect {i : Instr} (hi : isFrameCommand i = true) (s : State) :
    restoreFrameUnit s (awakeEffect i s) = s := by
  cases i with
  | frmStart | fenc => rfl
  | frmByte | frmFixed | frmRaw | frmDec2 | frmDec => exact restoreFrameUnit_appendAll s _ _
  | frmCrc =>
    simp only [awakeEffect]
    split
    · rfl
    · exact restoreFrameUnit_appendAll s s _
  | crcInit | crcByte | crcVerify | slpInit | slpSleep => cases hi

theorem restoreCrcUnit_awakeEffect {i : Instr} (hi : i = .crcInit ∨ (∃ b, i = .crcByte b) ∨ ∃ h, i = .crcVerify h)
    (s : State) : restoreCrcUnit s (awakeEffect i s) = s := by
  rcases hi with rfl | ⟨b, rfl⟩ | ⟨h, rfl⟩ <;> rfl

theorem restoreSleepUnit_slpInit (s : State) : restoreSleepUnit s (slpInit s) = s := by
  unfold slpInit
  split <;> rfl

theorem restoreSleepUnit_acceptSleep (h : Half) (s : State) : restoreSleepUnit s (acceptSleep h s) = s := by
  unfold acceptSleep
  dsimp only
  split <;> rfl

theorem restoreSleepUnit_awakeEffect {i : Instr} (hi : i = .slpInit ∨ ∃ h, i = .slpSleep h) (s : State) :
    restoreSleepUnit s (awakeEffect i s) = s := by
  rcases hi with rfl | ⟨h, rfl⟩
  · exact restoreSleepUnit_slpInit s
  · simp only [awakeEffect]
    split
    · exact restoreSleepUnit_acceptSleep h s
    · rfl

/-- Settles O51: outside a sleep each effect lies within its unit's footprint, and during a sleep a command leaves only the
record of `ERR_BUSY`, which is in every footprint. -/
theorem unitsKeepApart : Obligations.UnitsKeepApart := by
  intro i s
  by_cases hs : s.fsm = .awake
  · exact ⟨_, exec_awake i hs, fun hi => restoreFrameUnit_awakeEffect hi s, fun hi => restoreCrcUnit_awakeEffect hi s,
      fun hi => restoreSleepUnit_awakeEffect hi s⟩
  · exact ⟨_, exec_busy i hs, fun _ => rfl, fun _ => rfl, fun _ => rfl⟩

end Sys2Proof.Machine
end

section
/-! SUPPORT. What one move does to a sleep in progress (R145, R121, R128): only the watchdog and the block move it. -/

namespace Sys2Proof.Machine

/-- A normal sleep in progress (R119, R127): `ARMED` or `SLEEPING`, ticks enabled, `rst_n` released. -/
structure Asleep (s : State) : Prop where
  fsm : s.fsm = .armed ∨ s.fsm = .sleeping
  init : s.init = true
  irqDis : s.irqDis = false
  rstN : s.rstN = true

theorem Asleep.not_awake {s : State} (h : Asleep s) : s.fsm ≠ .awake := by
  rcases h.fsm with hf | hf <;> rw [hf] <;> exact Fsm.noConfusion

theorem Asleep.tickEnabled {s : State} (h : Asleep s) : s.tickEnabled = true := by
  simp [State.tickEnabled, h.init, h.irqDis]

/-- The inputs of a sleep that no agent but reset changes while it runs. -/
structure KeepsSleepSetup (s t : State) : Prop where
  cycles : t.cycles = s.cycles
  init : t.init = s.init
  irqDis : t.irqDis = s.irqDis
  rstN : t.rstN = s.rstN

/-- What the event `e` can do to `fsm` and `ticks` of a normal sleep. -/
inductive SleepMoves (e : Event) (s t : State) : Prop where
  /-- A tick in `ARMED` (R121). -/
  | counts (he : e = .tick) (hs : s.fsm = .armed) (hf : t.fsm = .armed) (ht : t.ticks = s.ticks + 1)
  /-- A tick in `SLEEPING` (R121, R130). -/
  | wakes (he : e = .tick) (hs : s.fsm = .sleeping) (hf : t.fsm = .armed) (ht : t.ticks = s.ticks + 1)
  /-- A block step that finds the requested count (R128, R131). -/
  | returns (he : e = .block) (hs : s.fsm = .armed) (hc : s.cycles ≤ s.ticks) (hf : t.fsm = .awake) (ht : t.ticks = s.ticks)
  /-- A block step short of the requested count (R128, R129). -/
  | powersDown (he : e = .block) (hs : s.fsm = .armed) (hc : s.ticks < s.cycles) (hf : t.fsm = .sleeping)
      (ht : t.ticks = s.ticks)
  /-- Any other move; a block step is one only in `SLEEPING`. -/
  | rests (he : e ≠ .tick) (hs : e = .block → s.fsm = .sleeping) (hf : t.fsm = s.fsm) (ht : t.ticks = s.ticks)

/-- During a sleep a bus access does not reach the sleep unit: a command is rejected (R138), and the registers it can still
write are not the unit's (R61). -/
theorem busAccess_not_awake {a : Access} {s t : State} (hs : s.fsm ≠ .awake) (h : busAccess a s = .next t) :
    KeepsSleepSetup s t ∧ t.fsm = s.fsm ∧ t.ticks = s.ticks := by
  rcases busAccess_cases h with rfl | ⟨d, w, rfl⟩ | ⟨i, hi⟩ | rfl | ⟨w, rfl⟩ | ⟨w, rfl⟩ | ⟨w, rfl⟩
  case inr.inr.inl =>
    rcases exec_cases hi with ⟨ha, _⟩ | ⟨_, rfl⟩
    · exact absurd ha hs
    · exact ⟨⟨rfl, rfl, rfl, rfl⟩, rfl, rfl⟩
  all_goals exact ⟨⟨rfl, rfl, rfl, rfl⟩, rfl, rfl⟩

theorem tick_armed {s : State} (he : s.tickEnabled = true) (hs : s.fsm = .armed) :
    tick s = { s with ticks := s.ticks + 1 } := by
  simp [tick, tickHandler, he, hs]

theorem tick_sleeping {s : State} (he : s.tickEnabled = true) (hs : s.fsm = .sleeping) :
    tick s = wake { s with ticks := s.ticks + 1 } := by
  simp [tick, tickHandler, he, hs]

theorem blockStep_armed_return {s : State} (hs : s.fsm = .armed) (hc : s.cycles ≤ s.ticks) :
    blockStep s = returnFromSleep s := by
  simp [blockStep, armedStep, hs, hc]

theorem blockStep_armed_powerDown {s : State} (hs : s.fsm = .armed) (hc : ¬ s.cycles ≤ s.ticks) :
    blockStep s = enterPowerDown s := by
  simp [blockStep, armedStep, hs, hc]

theorem blockStep_not_armed {s : State} (hs : s.fsm ≠ .armed) : blockStep s = s := by
  simp [blockStep, hs]

theorem tick_sleepMoves {s : State} (h : Asleep s) : SleepMoves .tick s (tick s) := by
  rcases h.fsm with hs | hs
  · rw [tick_armed h.tickEnabled hs]
    exact .counts rfl hs hs rfl
  · rw [tick_sleeping h.tickEnabled hs]
    exact .wakes rfl hs rfl rfl

theorem blockStep_sleepMoves {s : State} (h : Asleep s) : SleepMoves .block s (blockStep s) := by
  rcases h.fsm with hs | hs
  · by_cases hc : s.cycles ≤ s.ticks
    · rw [blockStep_armed_return hs hc]
      exact .returns rfl hs hc rfl rfl
    · rw [blockStep_armed_powerDown hs hc]
      exact .powersDown rfl hs (BitVec.not_le.1 hc) rfl rfl
  · rw [blockStep_not_armed (by simp [hs])]
    exact .rests Event.noConfusion (fun _ => hs) rfl rfl

/-- Everything a move without reset does to a normal sleep. -/
theorem agentMove_asleep {e : Event} {s t : State} (h : Asleep s) (he : ∀ level, e ≠ .rstN level)
    (hm : agentMove e s = .next t) : KeepsSleepSetup s t ∧ SleepMoves e s t := by
  cases e with
  | host =>
    rcases hostMove_cases hm with ⟨rfl, _⟩ | ⟨ha, _⟩
    · exact ⟨⟨rfl, rfl, rfl, rfl⟩, .rests Event.noConfusion Event.noConfusion rfl rfl⟩
    · exact absurd ha h.not_awake
  | second a =>
    obtain ⟨hk, hf, ht⟩ := busAccess_not_awake h.not_awake hm
    exact ⟨hk, .rests Event.noConfusion Event.noConfusion hf ht⟩
  | tick => cases hm; exact ⟨⟨tick_cycles s, tick_init s, tick_irqDis s, tick_rstN s⟩, tick_sleepMoves h⟩
  | block => cases hm; exact ⟨⟨blockStep_cycles s, blockStep_init s, blockStep_irqDis s, blockStep_rstN s⟩, blockStep_sleepMoves h⟩
  | vlow level => cases hm; exact ⟨⟨rfl, rfl, rfl, rfl⟩, .rests Event.noConfusion Event.noConfusion rfl rfl⟩
  | rstN level => exact absurd rfl (he level)

/-- Only a block step that finds the requested count ends a sleep (R128). -/
theorem SleepMoves.returns_of_awake {e : Event} {s t : State} (hm : SleepMoves e s t) (hs : s.fsm ≠ .awake)
    (ht : t.fsm = .awake) : e = .block ∧ s.cycles ≤ s.ticks ∧ t.ticks = s.ticks := by
  cases hm with
  | returns he _ hc _ htk => exact ⟨he, hc, htk⟩
  | counts _ _ hf | wakes _ _ hf | powersDown _ _ _ hf => rw [ht] at hf; cases hf
  | rests _ _ hf => exact absurd (hf.symm.trans ht) hs

/-- A sleep in progress goes on until a move leaves `fsm` in `AWAKE`. -/
theorem Asleep.next {e : Event} {s t : State} (h : Asleep s) (hk : KeepsSleepSetup s t) (hm : SleepMoves e s t)
    (ht : t.fsm ≠ .awake) : Asleep t where
  fsm := by
    cases hm with
    | counts _ _ hf | wakes _ _ hf => exact .inl hf
    | powersDown _ _ _ hf => exact .inr hf
    | returns _ _ _ hf => exact absurd hf ht
    | rests _ _ hf => rw [hf]; exact h.fsm
  init := hk.init.trans h.init
  irqDis := hk.irqDis.trans h.irqDis
  rstN := hk.rstN.trans h.rstN

end Sys2Proof.Machine
end

section
/-! SUPPORT. O60: while a sleep within the `ARMED` bound lasts, `ticks` is the exact number of ticks so far, so it does not
wrap past `cycles`; fairness brings the `cycles`-th tick and then the block step that returns. -/

namespace Sys2Proof.Machine

/-- What holds of an infinite run up to `r n` while the sleep that begins in `r 0` lasts. -/
structure SleepRun (σ : Nat → Event) (r : Nat → State) (n : Nat) : Prop where
  asleep : Asleep (r n)
  cycles : (r n).cycles = (r 0).cycles
  ticks : (r n).ticks.toNat = ticksBefore σ n
  /-- Power-down is entered short of the count (R129). -/
  sleeping : (r n).fsm = .sleeping → ticksBefore σ n < (r 0).cycles.toNat
  /-- The current `ARMED` interval began with at most `cycles` ticks, so the bound on it keeps `ticks` from wrapping. -/
  armed : (r n).fsm = .armed →
    ∃ a ≤ n, ticksBefore σ a ≤ (r 0).cycles.toNat ∧ ∀ m, a ≤ m → m ≤ n → (r m).fsm = .armed
  /-- No block step so far has found the count reached (R128). -/
  blocks : ∀ m < n, σ m = .block → ticksBefore σ m < (r 0).cycles.toNat

/-- One tick more without a wrap (R121). -/
theorem half_toNat_add_one {x : Half} {k : Nat} (hx : x.toNat = k) (hk : k + 1 < 65536) : (x + 1).toNat = k + 1 := by
  rw [BitVec.toNat_add, hx]
  exact Nat.mod_eq_of_lt hk

section
variable {σ : Nat → Event} {r : Nat → State}

theorem SleepLasts.mono {m n : Nat} (h : SleepLasts r n) (hmn : m ≤ n) : SleepLasts r m :=
  fun k hk => h k (hk.trans hmn)

theorem sleepRun_zero (hf : (r 0).fsm = .armed) (ht : (r 0).ticks = 0) (hi : (r 0).init = true)
    (hq : (r 0).irqDis = false) (hr : (r 0).rstN = true) : SleepRun σ r 0 where
  asleep := ⟨.inl hf, hi, hq, hr⟩
  cycles := rfl
  ticks := by rw [ht]; rfl
  sleeping hs := by rw [hf] at hs; cases hs
  armed _ := ⟨0, le_rfl, Nat.zero_le _, fun m _ hm => by rwa [Nat.le_zero.1 hm]⟩
  blocks m hm := absurd hm m.not_lt_zero

/-- What the `n`-th event of a run does to the sleep. -/
theorem SleepRun.move {n : Nat} (h : SleepRun σ r n) (hrun : InfiniteRun σ r) (hnr : ∀ n level, σ n ≠ .rstN level) :
    KeepsSleepSetup (r n) (r (n + 1)) ∧ SleepMoves (σ n) (r n) (r (n + 1)) := by
  obtain ⟨hf, hi, hq, hr⟩ := h.asleep
  obtain ⟨⟨kc, ki, kq, kr⟩, hm⟩ :=
    agentMove_asleep (s := { r n with sched := [] }) ⟨hf, hi, hq, hr⟩ (hnr n) (hrun.move hr)
  refine ⟨⟨kc, ki, kq, kr⟩, ?_⟩
  cases hm with
  | counts he hs hf ht => exact .counts he hs hf ht
  | wakes he hs hf ht => exact .wakes he hs hf ht
  | returns he hs hc hf ht => exact .returns he hs hc hf ht
  | powersDown he hs hc hf ht => exact .powersDown he hs hc hf ht
  | rests he hs hf ht => exact .rests he hs hf ht

/-- In `ARMED` the bound leaves room for one more tick. -/
theorem SleepRun.armed_room {n : Nat} (h : SleepRun σ r n) (hb : ArmedBoundHolds σ r) (hl : SleepLasts r n)
    (hf : (r n).fsm = .armed) : ticksBefore σ (n + 1) < 65536 := by
  obtain ⟨a, han, hta, harm⟩ := h.armed hf
  have hbound := hb a n han hl harm
  omega

/-- The `ARMED` interval that the wake opens. -/
theorem armed_interval_self {n : Nat} (hf : (r n).fsm = .armed) : ∀ m, n ≤ m → m ≤ n → (r m).fsm = .armed :=
  fun m h h' => by rwa [Nat.le_antisymm h' h]

/-- An `ARMED` interval with one state more. -/
theorem armed_interval_succ {a n : Nat} (h : ∀ m, a ≤ m → m ≤ n → (r m).fsm = .armed) (hf : (r (n + 1)).fsm = .armed) :
    ∀ m, a ≤ m → m ≤ n + 1 → (r m).fsm = .armed := by
  intro m ham hmn
  rcases Nat.le_succ_iff.1 hmn with hle | rfl
  · exact h m ham hle
  · exact hf

/-! Each part of `SleepRun` after one move more. -/

theorem SleepRun.ticks_succ {n : Nat} (h : SleepRun σ r n) (hm : SleepMoves (σ n) (r n) (r (n + 1)))
    (hb : ArmedBoundHolds σ r) (hl : SleepLasts r n) : (r (n + 1)).ticks.toNat = ticksBefore σ (n + 1) := by
  cases hm with
  | counts he hs _ ht =>
    have hroom := h.armed_room hb hl hs
    rw [ticksBefore_tick he] at hroom ⊢
    rw [ht, half_toNat_add_one h.ticks hroom]
  | wakes he hs _ ht =>
    have hlt := h.sleeping hs
    have hc := (r 0).cycles.isLt
    rw [ticksBefore_tick he, ht, half_toNat_add_one h.ticks (by omega)]
  | returns he _ _ _ ht | powersDown he _ _ _ ht => rw [ticksBefore_other (by simp [he]), ht, h.ticks]
  | rests he _ _ ht => rw [ticksBefore_other he, ht, h.ticks]

theorem SleepRun.sleeping_succ {n : Nat} (h : SleepRun σ r n) (hm : SleepMoves (σ n) (r n) (r (n + 1)))
    (hs' : (r (n + 1)).fsm = .sleeping) : ticksBefore σ (n + 1) < (r 0).cycles.toNat := by
  cases hm with
  | counts _ _ hf | wakes _ _ hf | returns _ _ _ hf => rw [hf] at hs'; cases hs'
  | powersDown he _ hc => rwa [ticksBefore_other (by simp [he]), ← h.ticks, ← h.cycles]
  | rests he _ hf => rw [ticksBefore_other he]; exact h.sleeping (hf.symm.trans hs')

theorem SleepRun.armed_succ {n : Nat} (h : SleepRun σ r n) (hm : SleepMoves (σ n) (r n) (r (n + 1)))
    (hs' : (r (n + 1)).fsm = .armed) :
    ∃ a ≤ n + 1, ticksBefore σ a ≤ (r 0).cycles.toNat ∧ ∀ m, a ≤ m → m ≤ n + 1 → (r m).fsm = .armed := by
  have interval_goes_on : (r n).fsm = .armed →
      ∃ a ≤ n + 1, ticksBefore σ a ≤ (r 0).cycles.toNat ∧ ∀ m, a ≤ m → m ≤ n + 1 → (r m).fsm = .armed := by
    intro hs
    obtain ⟨a, han, hta, harm⟩ := h.armed hs
    exact ⟨a, han.trans n.le_succ, hta, armed_interval_succ harm hs'⟩
  cases hm with
  | counts _ hs => exact interval_goes_on hs
  | wakes he hs =>
    exact ⟨n + 1, le_rfl, by rw [ticksBefore_tick he]; exact h.sleeping hs, armed_interval_self hs'⟩
  | returns _ _ _ hf | powersDown _ _ _ hf => rw [hf] at hs'; cases hs'
  | rests _ _ hf => exact interval_goes_on (hf.symm.trans hs')

theorem SleepRun.blocks_succ {n : Nat} (h : SleepRun σ r n) (hm : SleepMoves (σ n) (r n) (r (n + 1)))
    (ha : (r (n + 1)).fsm ≠ .awake) : ∀ m < n + 1, σ m = .block → ticksBefore σ m < (r 0).cycles.toNat := by
  intro m hmn hblock
  rcases Nat.lt_succ_iff_lt_or_eq.1 hmn with hlt | rfl
  · exact h.blocks m hlt hblock
  · cases hm with
    | counts he | wakes he => rw [he] at hblock; cases hblock
    | returns _ _ _ hf => exact absurd hf ha
    | powersDown _ _ hc => rwa [← h.ticks, ← h.cycles]
    | rests _ hs => exact h.sleeping (hs hblock)

theorem SleepRun.succ {n : Nat} (h : SleepRun σ r n) (hrun : InfiniteRun σ r) (hnr : ∀ n level, σ n ≠ .rstN level)
    (hb : ArmedBoundHolds σ r) (hl : SleepLasts r (n + 1)) : SleepRun σ r (n + 1) := by
  obtain ⟨hk, hm⟩ := h.move hrun hnr
  have ha := hl (n + 1) le_rfl
  exact {
    asleep := h.asleep.next hk hm ha
    cycles := hk.cycles.trans h.cycles
    ticks := h.ticks_succ hm hb (hl.mono n.le_succ)
    sleeping := h.sleeping_succ hm
    armed := h.armed_succ hm
    blocks := h.blocks_succ hm ha }

/-- The invariant holds as long as the sleep lasts. -/
theorem SleepLasts.sleepRun (hrun : InfiniteRun σ r) (hnr : ∀ n level, σ n ≠ .rstN level) (hb : ArmedBoundHolds σ r)
    (h₀ : SleepRun σ r 0) {n : Nat} (hl : SleepLasts r n) : SleepRun σ r n := by
  induction n with
  | zero => exact h₀
  | succ n ih => exact (ih (hl.mono n.le_succ)).succ hrun hnr hb hl

/-! ### Fairness (R10) -/

/-- In a sleep that lasts for ever the tick stays enabled, so fairness brings any number of ticks. -/
theorem exists_le_ticksBefore (hfair : FairTicks σ r) (h : ∀ n, SleepRun σ r n) (k : Nat) : ∃ n, k ≤ ticksBefore σ n := by
  induction k with
  | zero => exact ⟨0, Nat.zero_le _⟩
  | succ k ih =>
    obtain ⟨n, hn⟩ := ih
    obtain ⟨m, hnm, hm⟩ := hfair n (fun m _ => (h m).asleep.tickEnabled)
    exact ⟨m + 1, by rw [ticksBefore_tick hm]; exact Nat.succ_le_succ (hn.trans (ticksBefore_mono σ hnm))⟩

/-- Once the count is reached the unit is in `ARMED`. -/
theorem SleepRun.armed_of_count {n : Nat} (h : SleepRun σ r n) (hn : (r 0).cycles.toNat ≤ ticksBefore σ n) :
    (r n).fsm = .armed :=
  h.asleep.fsm.resolve_right fun hs => Nat.not_lt.2 hn (h.sleeping hs)

/-- No fair sleep lasts for ever: after the `cycles`-th tick the unit stays in `ARMED`, so a block step comes, and it would
have found the count reached. -/
theorem not_forall_sleepRun (hfair : WeaklyFair σ r) : ¬ ∀ n, SleepRun σ r n := by
  intro h
  obtain ⟨n, hn⟩ := exists_le_ticksBefore hfair.1 h (r 0).cycles.toNat
  have count_reached : ∀ m, n ≤ m → (r 0).cycles.toNat ≤ ticksBefore σ m :=
    fun m hnm => hn.trans (ticksBefore_mono σ hnm)
  obtain ⟨m, hnm, hm⟩ := hfair.2 n (fun m hnm => (h m).armed_of_count (count_reached m hnm))
  exact Nat.not_lt.2 (count_reached m hnm) ((h (m + 1)).blocks m m.lt_succ_self hm)

/-- The last state of a sleep that does not last for ever. -/
theorem exists_last_asleep (h₀ : (r 0).fsm ≠ .awake) (h : ¬ ∀ n, SleepLasts r n) :
    ∃ n, SleepLasts r n ∧ (r (n + 1)).fsm = .awake := by
  by_contra hno
  refine h fun n => ?_
  induction n with
  | zero => exact fun m hm => by rwa [Nat.le_zero.1 hm]
  | succ n ih =>
    intro m hmn
    rcases Nat.le_succ_iff.1 hmn with hle | rfl
    · exact ih m hle
    · exact fun ha => hno ⟨n, ih, ha⟩

end

/-- Settles O60: the invariant `SleepRun` holds up to the last state of the sleep, fairness gives that there is one, and the
move out of it can only be a block step that finds the count reached. Fairness is read as notes/assumptions/2.md says. -/
theorem sleepReturnsUnderFairness : Obligations.SleepReturnsUnderFairness := by
  intro σ r hrun hfair hb hnr hf ht hi hq hr
  have h₀ : SleepRun σ r 0 := sleepRun_zero hf ht hi hq hr
  have inv : ∀ {n}, SleepLasts r n → SleepRun σ r n := SleepLasts.sleepRun hrun hnr hb h₀
  obtain ⟨n, hl, ha⟩ := exists_last_asleep h₀.asleep.not_awake
    (fun h => not_forall_sleepRun hfair fun n => inv (h n))
  have h := inv hl
  obtain ⟨hk, hm⟩ := h.move hrun hnr
  obtain ⟨he, hc, htk⟩ := hm.returns_of_awake h.asleep.not_awake ha
  have count_reached : (r 0).cycles.toNat ≤ ticksBefore σ n := by rwa [← h.ticks, ← h.cycles]
  exact ⟨n, hl, he, ha, hk.cycles.trans h.cycles, by rwa [hk.cycles, htk], count_reached, h.blocks⟩

end Sys2Proof.Machine
end

section
/-! SUPPORT. Invariants of a step: what the moves of the agents must keep, said once, so that an invariant is proved over the
effects of the commands, the tick, the block step and reset, and never over `step` itself. -/

namespace Sys2Proof.Machine

/-- `t` differs from `s` at most in the interface: `OPND`, `CFG`, the error record and the sticky flags, the inputs and the
model's own fields, which bus accesses and the environment write without a command running. -/
def ChangesInterfaceOnly (s t : State) : Prop :=
  { s with
    opnd := t.opnd, frmOvf := t.frmOvf, fencRng := t.fencRng, cmdErr := t.cmdErr, errCode := t.errCode
    cfgFailsafeEn := t.cfgFailsafeEn, cfgTxtMode := t.cfgTxtMode, vlow := t.vlow, rstN := t.rstN
    hostOps := t.hostOps, sched := t.sched, draws := t.draws, rdata := t.rdata } = t

/-- What makes `P` an invariant: every change that some agent's move can make keeps it. -/
structure KeptByMoves (P : State → Prop) : Prop where
  interface : ∀ {s t}, ChangesInterfaceOnly s t → P s → P t
  effect : ∀ {s} (i : Instr), s.fsm = .awake → P s → P (awakeEffect i s)
  tick : ∀ {s}, P s → P (tick s)
  block : ∀ {s}, P s → P (blockStep s)
  reset : ∀ {s}, P s → P (resetBlock s)

section
variable {P : State → Prop}

theorem KeptByMoves.busAccess (hP : KeptByMoves P) {a : Access} {s t : State} (hs : P s)
    (h : busAccess a s = .next t) : P t := by
  rcases busAccess_cases h with rfl | ⟨d, w, rfl⟩ | ⟨i, hi⟩ | rfl | ⟨w, rfl⟩ | ⟨w, rfl⟩ | ⟨w, rfl⟩
  case inr.inr.inl =>
    rcases exec_cases hi with ⟨ha, rfl⟩ | ⟨_, rfl⟩
    · exact hP.effect i ha hs
    · exact hP.interface rfl hs
  all_goals exact hP.interface rfl hs

theorem KeptByMoves.driveReset (hP : KeptByMoves P) (level : Bool) {s : State} (hs : P s) : P (driveReset level s) := by
  have hlevel : P { s with rstN := level } := hP.interface rfl hs
  unfold Machine.driveReset
  dsimp only
  split
  · exact hlevel
  · exact hP.reset hlevel

theorem KeptByMoves.agentMove (hP : KeptByMoves P) {e : Event} {s t : State} (hs : P s)
    (h : agentMove e s = .next t) : P t := by
  cases e with
  | host =>
    rcases hostMove_cases h with ⟨rfl, _⟩ | ⟨_, a, ops, _, ha⟩
    · exact hs
    · have taken : P { s with hostOps := ops } := hP.interface rfl hs
      exact hP.busAccess taken ha
  | second a => exact hP.busAccess hs h
  | tick => cases h; exact hP.tick hs
  | block => cases h; exact hP.block hs
  | vlow level => cases h; exact hP.interface rfl hs
  | rstN level => cases h; exact hP.driveReset level hs

/-- A property that every move keeps is kept by every step. -/
theorem KeptByMoves.step (hP : KeptByMoves P) {s t : State} (hs : P s) (h : step s = .next t) : P t := by
  rcases step_cases h with ⟨_, _, rfl⟩ | ⟨e, rest, u, _, hm, rfl⟩
  · exact hs
  · have taken : P { s with sched := rest } := hP.interface rfl hs
    have hu : P u := hP.agentMove taken hm
    split
    · exact hu
    · exact hP.reset hu

end

end Sys2Proof.Machine
end

section
/-! SUPPORT. O56: only appends, `FRM_START` and reset write the fields of the frame invariant. -/

namespace Sys2Proof.Machine

/-- The frame invariant speaks of three fields only. -/
theorem frameInv_congr {s t : State} (hf : t.frame = s.frame) (hw : t.frameWritten = s.frameWritten)
    (hl : t.frmLen = s.frmLen) (h : FrameInv s) : FrameInv t := by
  simpa only [FrameInv, State.frameWrittenAt, hf, hw, hl] using h

/-- An empty frame (R99): no byte below `frm_len` is left to be written. -/
theorem frameInv_frmLen_zero {s : State} (h : FrameInv s) : FrameInv { s with frmLen := 0 } := by
  obtain ⟨hwf, _, hlisted, _⟩ := h
  exact ⟨hwf, Nat.zero_le _, hlisted, fun i hi => absurd hi (Nat.not_lt_zero i)⟩

/-- Reset clears `frame_written[]` and `frm_len`, so the kept cells need only be canonical (R158). -/
theorem frameInv_resetBlock {s : State} (h : Memory.wf s.frame = true) : FrameInv (resetBlock s) := by
  refine ⟨h, Nat.zero_le _, fun i _ hi => ?_, fun i hi => absurd hi (Nat.not_lt_zero i)⟩
  have hclear : (resetBlock s).frameWrittenAt i = false := BitVec.getLsbD_zero
  rw [hclear] at hi
  cases hi

theorem frameInv_awakeEffect (i : Instr) {s : State} (h : FrameInv s) : FrameInv (awakeEffect i s) := by
  cases i with
  | crcInit | crcByte | crcVerify | fenc => exact h
  | frmStart => exact frameInv_frmLen_zero h
  | frmByte b => exact appendAll_frameInv [b] (s := feedCrc b s) h
  | frmFixed =>
    exact appendAll_frameInv _ (s := feedCrc (fracByte s.opnd) (feedCrc (intByte s.opnd) (encodeReading s))) h
  | frmRaw | frmDec2 | frmDec => exact appendAll_frameInv _ h
  | frmCrc =>
    simp only [awakeEffect]
    split
    · exact h
    · exact appendAll_frameInv _ h
  | slpInit => exact frameInv_congr (slpInit_frame s) (slpInit_frameWritten s) (slpInit_frmLen s) h
  | slpSleep c =>
    simp only [awakeEffect]
    split
    · exact frameInv_congr (acceptSleep_frame c s) (acceptSleep_frameWritten c s) (acceptSleep_frmLen c s) h
    · exact h

theorem frameInv_keptByMoves : KeptByMoves FrameInv where
  interface he h := by rw [← he]; exact h
  effect i _ h := frameInv_awakeEffect i h
  tick {s} h := frameInv_congr (tick_frame s) (tick_frameWritten s) (tick_frmLen s) h
  block {s} h := frameInv_congr (blockStep_frame s) (blockStep_frameWritten s) (blockStep_frmLen s) h
  reset h := frameInv_resetBlock h.1

/-- Settles O56: every move keeps the frame invariant. The canonical form is the model's own (notes/assumptions/15.md). -/
theorem stepKeepsFrameInv : Obligations.StepKeepsFrameInv :=
  fun _ _ hs h => frameInv_keptByMoves.step hs h

end Sys2Proof.Machine
end

section
/-! SUPPORT. O57: each move of the sleep unit takes its signals to the values of the state it enters. -/

namespace Sys2Proof.Machine

theorem sleepInv_resetBlock (s : State) : SleepInv (resetBlock s) := by
  refine ⟨rfl, rfl, rfl, rfl, rfl, ?_, ?_, ?_, fun _ => ⟨rfl, rfl, rfl, rfl⟩⟩ <;> simp [resetBlock]

theorem tick_disabled {s : State} (he : s.tickEnabled = false) : tick s = s := by
  simp [tick, he]

/-- A tick outside `SLEEPING` only counts (R121). -/
theorem tick_not_sleeping {s : State} (he : s.tickEnabled = true) (hs : s.fsm ≠ .sleeping) :
    tick s = { s with ticks := s.ticks + 1 } := by
  simp [tick, tickHandler, he, hs]

/-- A tick counts only after `SLP_INIT`, and in `SLEEPING` it leaves power-down, so `ticks < cycles` is not claimed of the
count it leaves (R121, R130). -/
theorem sleepInv_tick {s : State} (h : SleepInv s) : SleepInv (tick s) := by
  cases he : s.tickEnabled with
  | false => rwa [tick_disabled he]
  | true =>
    obtain ⟨hwdt, hpd, hreq, hbod, hirq, hinit, hanalog, _, _⟩ := h
    have hi : s.init = true := (Bool.and_eq_true_iff.1 he).1
    have started : s.init ≠ false := by simp [hi]
    by_cases hs : s.fsm = .sleeping
    · rw [tick_sleeping he hs]
      have hq : s.irqDis = false := by rw [hirq, hs]; rfl
      exact ⟨hwdt, hpd, rfl, rfl, hq, fun _ => hi, fun _ => hanalog (.inr hs), Fsm.noConfusion, fun hn => absurd hn started⟩
    · rw [tick_not_sleeping he hs]
      exact ⟨hwdt, hpd, hreq, hbod, hirq, hinit, hanalog, fun hs' => absurd hs' hs, fun hn => absurd hn started⟩

theorem sleepInv_blockStep {s : State} (h : SleepInv s) : SleepInv (blockStep s) := by
  by_cases hs : s.fsm = .armed
  · obtain ⟨hwdt, hpd, hreq, hbod, hirq, hinit, hanalog, _, _⟩ := h
    have hi : s.init = true := hinit (by simp [hs])
    have started : s.init ≠ false := by simp [hi]
    rw [hs] at hreq hbod hirq
    by_cases hc : s.cycles ≤ s.ticks
    · rw [blockStep_armed_return hs hc]
      exact ⟨hwdt, hpd, hreq, hbod, hirq, fun _ => hi, fun hs' => hs'.elim Fsm.noConfusion Fsm.noConfusion,
        Fsm.noConfusion, fun hn => absurd hn started⟩
    · rw [blockStep_armed_powerDown hs hc]
      exact ⟨hwdt, hpd, rfl, rfl, hirq, fun _ => hi, fun _ => hanalog (.inl hs), fun _ => BitVec.not_le.1 hc,
        fun hn => absurd hn started⟩
  · rwa [blockStep_not_armed hs]

/-- `SLP_INIT` comes in `AWAKE` only, where the analog side is not claimed to be off (R124, R138). -/
theorem sleepInv_slpInit {s : State} (hs : s.fsm = .awake) (h : SleepInv s) : SleepInv (slpInit s) := by
  unfold slpInit
  split
  · exact h
  · obtain ⟨_, _, hreq, hbod, hirq, _⟩ := h
    refine ⟨rfl, rfl, hreq, hbod, hirq, fun _ => rfl, ?_, ?_, Bool.noConfusion⟩ <;> simp [hs]

theorem sleepInv_acceptSleep (c : Half) {s : State} (hs : s.fsm = .awake) (hi : s.init = true) (h : SleepInv s) :
    SleepInv (acceptSleep c s) := by
  obtain ⟨hwdt, hpd, hreq, hbod, hirq, _⟩ := h
  have started : s.init ≠ false := by simp [hi]
  rw [hs] at hreq hbod hirq
  unfold acceptSleep
  dsimp only
  split
  · exact ⟨hwdt, hpd, rfl, rfl, rfl, fun _ => hi, fun hs' => hs'.elim Fsm.noConfusion Fsm.noConfusion, Fsm.noConfusion,
      fun hn => absurd hn started⟩
  · exact ⟨hwdt, hpd, hreq, hbod, hirq, fun _ => hi, fun _ => ⟨rfl, rfl⟩, Fsm.noConfusion, fun hn => absurd hn started⟩

/-- The frame unit's commands leave the sleep unit alone (R2). -/
theorem sleepInv_frameCommand {i : Instr} (hi : isFrameCommand i = true) {s : State} (h : SleepInv s) :
    SleepInv (awakeEffect i s) := by
  have hkept : SleepInv (restoreFrameUnit s (awakeEffect i s)) := by rwa [restoreFrameUnit_awakeEffect hi s]
  exact hkept

theorem sleepInv_awakeEffect (i : Instr) {s : State} (hs : s.fsm = .awake) (h : SleepInv s) :
    SleepInv (awakeEffect i s) := by
  cases i with
  | crcInit | crcByte | crcVerify => exact h
  | frmStart | frmByte | fenc | frmFixed | frmCrc | frmRaw | frmDec2 | frmDec => exact sleepInv_frameCommand rfl h
  | slpInit => exact sleepInv_slpInit hs h
  | slpSleep c =>
    simp only [awakeEffect]
    split
    · next hi => exact sleepInv_acceptSleep c hs hi h
    · exact h

theorem sleepInv_keptByMoves : KeptByMoves SleepInv where
  interface he h := by rw [← he]; exact h
  effect i hs h := sleepInv_awakeEffect i hs h
  tick := sleepInv_tick
  block := sleepInv_blockStep
  reset {s} _ := sleepInv_resetBlock s

/-- Settles O57: every move keeps the sleep invariant. -/
theorem stepKeepsSleepInv : Obligations.StepKeepsSleepInv :=
  fun _ _ hs h => sleepInv_keptByMoves.step hs h

end Sys2Proof.Machine
end

section
/-! SUPPORT. The register window from the bus: an aligned 32-bit access in the register area reaches the register at its
offset (R54, R55), and the bits of the words that the flag registers read as (R25, R31, R32). -/

namespace Sys2Proof.Machine

/-! ### Accesses that the window accepts -/

theorem inWindow_add (s : State) {off : Nat} (h : off < 512) : s.inWindow (s.base + off) = true := by
  simp [State.inWindow, Config.windowSize, h]

theorem accepts_register {off : Nat} (h : off < 256) (ha : off % 4 = 0) : accepts off 4 = true := by
  simp [accepts, regAccepts, Config.frameOffset, h, ha]

theorem busAccess_read (s : State) {off width : Nat} (h : off < 512) (ha : accepts off width = true) :
    busAccess (.read (s.base + off) width) s = .next (windowRead off width s) := by
  simp [busAccess, inWindow_add s h, ha]

theorem busAccess_write (s : State) {off width : Nat} (w : Word) (h : off < 512) (ha : accepts off width = true) :
    busAccess (.write (s.base + off) width w) s = windowWrite off w s := by
  simp [busAccess, inWindow_add s h, ha]

theorem windowRead_register {off : Nat} (width : Nat) (s : State) (h : off < 256) :
    windowRead off width s = { s with rdata := regRead off s } := by
  unfold windowRead
  exact if_pos h

theorem windowWrite_register {off : Nat} (w : Word) (s : State) (h : off < 256) :
    windowWrite off w s = regWrite off w s := by
  unfold windowWrite
  exact if_pos h

/-- `RegRead` (R55): the answer is the only thing new. -/
theorem busAccess_read_register (s : State) {off : Nat} (h : off < 256) (ha : off % 4 = 0) :
    busAccess (.read (s.base + off) 4) s = .next { s with rdata := regRead off s } := by
  rw [busAccess_read s (by omega) (accepts_register h ha), windowRead_register 4 s h]

/-- `RegWrite` (R55). -/
theorem busAccess_write_register (s : State) {off : Nat} (w : Word) (h : off < 256) (ha : off % 4 = 0) :
    busAccess (.write (s.base + off) 4 w) s = regWrite off w s := by
  rw [busAccess_write s w (by omega) (accepts_register h ha), windowWrite_register w s h]

theorem Reg.offset_le (r : Reg) : r.offset ≤ 0x024 := by cases r <;> decide

theorem Reg.offset_aligned (r : Reg) : r.offset % 4 = 0 := by cases r <;> rfl

theorem busAccess_read_reg (r : Reg) (s : State) :
    busAccess (.read (s.base + r.offset) 4) s = .next { s with rdata := readReg r s } := by
  have hr := r.offset_le
  rw [busAccess_read_register s (by omega) r.offset_aligned, regRead, regAt_offset]

theorem busAccess_write_reg (r : Reg) (s : State) (w : Word) :
    busAccess (.write (s.base + r.offset) 4 w) s = regWrite r.offset w s := by
  have hr := r.offset_le
  exact busAccess_write_register s w (by omega) r.offset_aligned

/-- No register stands above `OUT` (R22, R34). -/
theorem regAt_reserved {off : Nat} (h : 0x028 ≤ off) : regAt off = none := by
  cases hr : regAt off with
  | none => rfl
  | some r =>
    have ho := regAt_some hr
    have hle := r.offset_le
    omega

/-! ### The fields of a flag word -/

theorem half_setWidth (h : Half) : h.setWidth 32 = 0#16 ++ h := BitVec.setWidth_eq_append (by decide)

/-- The last field stands in the low bits. -/
theorem flagWord_extract_last {m n : Nat} (x : BitVec m) (y : BitVec n) (hn : n ≤ 32) :
    (flagWord (x ++ y)).extractLsb' 0 n = y := by
  ext i hi
  simp only [flagWord, BitVec.getElem_extractLsb', BitVec.getLsbD_setWidth, BitVec.getLsbD_append]
  simp [hi, show i < 32 by omega]

/-- A field above the last one is a field of the fields before it. -/
theorem flagWord_extract_skip {m n l k : Nat} (x : BitVec m) (y : BitVec n) (hl : n ≤ l) (hk : l + k ≤ 32) :
    (flagWord (x ++ y)).extractLsb' l k = (flagWord x).extractLsb' (l - n) k := by
  ext i hi
  simp only [flagWord, BitVec.getElem_extractLsb', BitVec.getLsbD_setWidth, BitVec.getLsbD_append]
  simp [show l + i < 32 by omega, show l - n + i < 32 by omega, show ¬ l + i < n by omega,
    show l + i - n = l - n + i by omega]

/-- The first field, with no other before it. -/
theorem flagWord_extract_first {n : Nat} (x : BitVec n) (hn : n ≤ 32) : (flagWord x).extractLsb' 0 n = x := by
  ext i hi
  simp [flagWord, hi, show i < 32 by omega]

/-- The bits above the fields are 0. -/
theorem flagWord_extract_above {n l k : Nat} (x : BitVec n) (h : n ≤ l) : (flagWord x).extractLsb' l k = 0 := by
  ext i hi
  simp [flagWord, BitVec.getLsbD_of_ge x (l + i) (by omega)]

/-- The one-bit fields of `STATUS` (R25). -/
theorem statusWord_flags (s : State) :
    (statusWord s)[0] = decide (s.fsm ≠ .awake) ∧ (statusWord s)[1] = s.init ∧ (statusWord s)[2] = s.matched
      ∧ (statusWord s)[3] = s.cmdErr ∧ (statusWord s)[4] = s.frmOvf ∧ (statusWord s)[5] = s.fencRng := by
  have hb : s.busy = decide (s.fsm ≠ .awake) := by
    rw [Bool.eq_iff_iff, State.busy_iff, decide_eq_true_iff]
  rw [← hb]
  simp only [statusWord, flagWord, BitVec.getElem_setWidth, BitVec.getLsbD_append]
  simp

/-- The two codes of `STATUS` and the reserved bits around them (R25). -/
theorem statusWord_codes (s : State) :
    (statusWord s).extractLsb' 6 2 = 0 ∧ (statusWord s).extractLsb' 8 2 = s.fsm.code
      ∧ (statusWord s).extractLsb' 10 2 = 0 ∧ (statusWord s).extractLsb' 12 4 = s.errCode.code
      ∧ (statusWord s).extractLsb' 16 16 = 0 := by
  refine ⟨?_, ?_, ?_, ?_, flagWord_extract_above _ (Nat.le_refl 16)⟩
  all_goals
    simp (disch := decide) only [statusWord, flagWord_extract_skip, flagWord_extract_last, flagWord_extract_first,
      Nat.reduceSub]
  all_goals rfl

/-- The fields of `OUT` (R32). -/
theorem outWord_fields (s : State) :
    (outWord s)[0] = s.wdtIe ∧ (outWord s)[1] = s.pdEn ∧ (outWord s)[2] = s.adcEn ∧ (outWord s)[3] = s.ainFloat
      ∧ (outWord s)[4] = s.pdReq ∧ (outWord s)[5] = s.bodOff ∧ (outWord s)[6] = s.irqDis
      ∧ (outWord s).extractLsb' 7 25 = 0 := by
  refine ⟨?_, ?_, ?_, ?_, ?_, ?_, ?_, flagWord_extract_above _ (Nat.le_refl 7)⟩
  all_goals
    simp only [outWord, flagWord, BitVec.getElem_setWidth, BitVec.getLsbD_append]
    simp

/-- The fields of `CFG` (R31). -/
theorem cfgWord_fields (s : State) :
    (cfgWord s)[0] = s.cfgFailsafeEn ∧ (cfgWord s)[1] = s.cfgTxtMode ∧ (cfgWord s).extractLsb' 2 30 = 0 := by
  refine ⟨?_, ?_, flagWord_extract_above _ (Nat.le_refl 2)⟩
  all_goals
    simp only [cfgWord, flagWord, BitVec.getElem_setWidth, BitVec.getLsbD_append]
    simp

end Sys2Proof.Machine
end

section
/-! SUPPORT. O31 to O34 and O38: each register, and an unwritten frame byte, as the bus sees them. -/

namespace Sys2Proof.Machine

/-- Settles O31: each offset is a register's, except the reserved ones, which are no register's. -/
theorem registerReads : Obligations.RegisterReads := by
  intro s
  refine ⟨busAccess_read_reg .cmd s, ?_, ?_, ?_, ?_, ?_, ?_⟩
  · rw [← half_setWidth]; exact busAccess_read_reg .crc s
  · rw [← half_setWidth]; exact busAccess_read_reg .frmLen s
  · rw [← half_setWidth]; exact busAccess_read_reg .fencRes s
  · rw [← half_setWidth]; exact busAccess_read_reg .ticks s
  · rw [← half_setWidth]; exact busAccess_read_reg .cycles s
  · intro off hlo hhi ha
    rw [busAccess_read_register s (by omega) ha, regRead, regAt_reserved hlo]

/-- A write of `STATUS` as a choice for each flag (R26). -/
theorem writeStatus_eq (w : Word) (s : State) :
    writeStatus w s =
      { s with
        cmdErr := if w[3] = true then false else s.cmdErr
        errCode := if w[3] = true then .none else s.errCode
        frmOvf := if w[4] = true then false else s.frmOvf
        fencRng := if w[5] = true then false else s.fencRng } := by
  have clear (f b : Bool) : (f && !b) = if b = true then false else f := by cases b <;> simp
  simp only [writeStatus, clear]

/-- Settles O32, from the fields of the word read and the write as a choice for each flag. -/
theorem statusRegister : Obligations.StatusRegister := by
  refine ⟨fun s => ⟨statusWord s, busAccess_read_reg .status s, ?_⟩, ⟨_, busAccess_read_reg .status State.reset, ?_⟩,
    fun s w => ?_⟩
  · obtain ⟨hbusy, hinit, hmatch, herr, hovf, hrng⟩ := statusWord_flags s
    obtain ⟨hlow, hfsm, hmid, hcode, hhigh⟩ := statusWord_codes s
    refine ⟨hbusy, hinit, hmatch, herr, hovf, hrng, hlow, ?_, hmid, ?_, hhigh⟩
    · rw [hfsm]; cases s.fsm <;> rfl
    · rw [hcode]; cases s.errCode <;> rfl
  · decide
  · rw [← writeStatus_eq]; exact busAccess_write_reg .status s w

/-- Settles O33, from the fields of the word read. -/
theorem outRegister : Obligations.OutRegister :=
  ⟨fun s => ⟨outWord s, busAccess_read_reg .out s, outWord_fields s⟩, fun s w => busAccess_write_reg .out s w,
    ⟨_, busAccess_read_reg .out State.reset, by decide⟩⟩

/-- Settles O34, from the fields of the word read. -/
theorem operandAndConfigRegisters : Obligations.OperandAndConfigRegisters := fun s w =>
  ⟨busAccess_write_reg .opnd s w, busAccess_read_reg .opnd s, rfl, busAccess_write_reg .cfg s w,
    ⟨cfgWord s, busAccess_read_reg .cfg s, cfgWord_fields s⟩⟩

/-- A byte that no append has written since reset is read by a draw (R57). -/
theorem frameRead_unwritten {i : Nat} {s : State} (hi : i < 256) (h : s.frameWrittenAt i = false) :
    frameRead i s = draw s := by
  simp [frameRead, Config.frameMax, show ¬ 256 ≤ i by omega, State.frameByte, h]

theorem accepts_frame_byte (i : Nat) : accepts (0x100 + i) 1 = true := by
  simp [accepts, frameAccepts, Config.frameOffset, Nat.mod_one]

/-- A 1-byte read of the frame area is one `FrameRead`, zero-extended (R56). -/
theorem windowRead_frame_byte (i : Nat) (s : State) :
    windowRead (0x100 + i) 1 s = { (frameRead i s).2 with rdata := (frameRead i s).1.setWidth 32 } := by
  simp [windowRead, frameAnswer, frameReads, answer, wordOfBytes, Config.frameOffset]

/-- Settles O38: a 1-byte read is one `FrameRead`, and that is a draw (notes/assumptions/7.md and 8.md). -/
theorem unwrittenByteIsDraw : Obligations.UnwrittenByteIsDraw := by
  intro s i hi hw
  rw [Nat.add_assoc, busAccess_read s (by omega) (accepts_frame_byte i), windowRead_frame_byte, frameRead_unwritten hi hw]
  rfl

end Sys2Proof.Machine
end

section
/-! SUPPORT. O40 and O59: the machine right after reset. -/

namespace Sys2Proof.Machine

theorem reset_frameByte (i : Nat) : State.reset.frameByte i = none := by
  simp [State.frameByte, State.frameWrittenAt, State.reset]

/-- Settles O40, by evaluation of `State.reset`; no frame byte is written there. -/
theorem resetStateValues : Obligations.ResetStateValues := by
  refine ⟨rfl, reset_frameByte, ?_⟩
  decide

/-- Settles O59: `State.reset` is its own `resetBlock`, so the lemmas on reset give the frame and the sleep invariant. -/
theorem invariantsHoldAtReset : Obligations.InvariantsHoldAtReset :=
  ⟨frameInv_resetBlock (s := State.reset) Memory.reset_wf, sleepInv_resetBlock State.reset, iff_of_true rfl rfl, fun _ => rfl,
    rfl⟩

end Sys2Proof.Machine
end

section
/-! SUPPORT. O42 and O43: a step as the next access of its agent, and a word written to `CMD` as the command it decodes to. -/

namespace Sys2Proof.Machine

/-- The host's move, when it is not held, is its next access (R63). -/
theorem hostMove_awake {s : State} {a : Access} {ops : List Access} (hs : s.fsm = .awake) (ho : s.hostOps = a :: ops) :
    hostMove s = busAccess a { s with hostOps := ops } := by
  simp [hostMove, State.hostHeld, (State.not_busy_iff s).2 hs, ho]

theorem busAccess_write_cmd (w : Word) (s : State) : busAccess (.write s.base 4 w) s = writeCmd w s :=
  busAccess_write_reg .cmd s w

theorem writeCmd_legal {w : Word} {i : Instr} (h : decode w = .ok i) (s : State) : writeCmd w s = exec i s := by
  simp [writeCmd, h]

theorem writeCmd_illegal {w : Word} {e : DecodeError} (h : decode w = .error e) (s : State) :
    writeCmd w s = .next (recorded .illegal s) := by
  simp [writeCmd, h, cmdError_eq_recorded]

theorem step_host {s : State} {a : Access} {ops : List Access} {rest : List Event} (hr : s.rstN = true)
    (hs : s.fsm = .awake) (he : s.sched = .host :: rest) (ho : s.hostOps = a :: ops) :
    step s = busAccess a { s with sched := rest, hostOps := ops } :=
  (step_cons he hr).trans (hostMove_awake (s := { s with sched := rest }) hs ho)

theorem step_second {s : State} {a : Access} {rest : List Event} (hr : s.rstN = true) (he : s.sched = .second a :: rest) :
    step s = busAccess a { s with sched := rest } :=
  step_cons he hr

/-- The host writes a word to `CMD` (R23). -/
theorem step_host_cmd {s : State} {w : Word} {ops : List Access} {rest : List Event} (hr : s.rstN = true)
    (hs : s.fsm = .awake) (he : s.sched = .host :: rest) (ho : s.hostOps = .write s.base 4 w :: ops) :
    step s = writeCmd w { s with sched := rest, hostOps := ops } :=
  (step_host hr hs he ho).trans (busAccess_write_cmd w { s with sched := rest, hostOps := ops })

/-- A second master writes a word to `CMD` (R140). -/
theorem step_second_cmd {s : State} {w : Word} {rest : List Event} (hr : s.rstN = true)
    (he : s.sched = .second (.write s.base 4 w) :: rest) : step s = writeCmd w { s with sched := rest } :=
  (step_second hr he).trans (busAccess_write_cmd w { s with sched := rest })

/-- Settles O42: the step is the access of its agent, and a write to `CMD` is `writeCmd` of its word. -/
theorem stepRunsDecodedCommand : Obligations.StepRunsDecodedCommand := by
  intro s rest hr
  refine ⟨fun a ops => step_host hr, fun a => step_second hr, fun w i hd => ⟨?_, ?_⟩, fun w e hd => ⟨?_, ?_⟩⟩
  · intro ops hs he ho
    rw [step_host_cmd hr hs he ho, writeCmd_legal hd]
  · intro he
    rw [step_second_cmd hr he, writeCmd_legal hd]
  · intro ops hs he ho
    rw [step_host_cmd hr hs he ho, writeCmd_illegal hd]
  · intro he
    rw [step_second_cmd hr he, writeCmd_illegal hd]

theorem decode_of_decodeTableWord {nbits w : Nat} {i : Instr} (h : decodeTableWord nbits w = some i) :
    decode (BitVec.ofNat 32 (w % 2 ^ nbits)) = .ok i := by
  unfold decodeTableWord at h
  split at h
  · next hd => cases h; exact hd
  · cases h

theorem placeCommand_held (w : Word) {s : State} (h : s.fsm ≠ .awake) :
    placeCommand w s = { s with rstN := true, sched := .second (cmdWrite w s) :: s.sched } := by
  simp [placeCommand, State.hostHeld, (State.busy_iff s).2 h]

theorem placeCommand_awake (w : Word) {s : State} (h : s.fsm = .awake) :
    placeCommand w s = { s with rstN := true, hostOps := cmdWrite w s :: s.hostOps, sched := .host :: s.sched } := by
  simp [placeCommand, State.hostHeld, (State.not_busy_iff s).2 h]

/-- A placed word is written to `CMD` by the next step, which takes away just what was placed. -/
theorem step_placeCommand (w : Word) (s : State) : step (placeCommand w s) = writeCmd w { s with rstN := true } := by
  by_cases hs : s.fsm = .awake
  · rw [placeCommand_awake w hs]
    exact step_host_cmd rfl hs rfl rfl
  · rw [placeCommand_held w hs]
    exact step_second_cmd rfl rfl

/-- Settles O43: the placed word is written to `CMD` by the next step (notes/assumptions/1.md). -/
theorem stepRunsFetchWord : Obligations.StepRunsFetchWord := by
  intro s nbits w i hd
  rw [State.withFetchWord, step_placeCommand, writeCmd_legal (decode_of_decodeTableWord hd)]

end Sys2Proof.Machine
end

section
/-! SUPPORT. How the window decides an access, read and write alike (R54 to R56, R142): not the block's, accepted or a bus
error. -/

namespace Sys2Proof.Machine

theorem State.inWindow_iff (s : State) (addr : Nat) :
    s.inWindow addr = true ↔ s.base ≤ addr ∧ addr < s.base + 512 := by
  rw [State.inWindow, Bool.and_eq_true, decide_eq_true_iff, decide_eq_true_iff]
  rfl

theorem accepts_register_iff {off : Nat} (width : Nat) (h : off < 256) :
    accepts off width = true ↔ width = 4 ∧ off % 4 = 0 := by
  simp [accepts, regAccepts, Config.frameOffset, h]

theorem accepts_frame_iff {off : Nat} (width : Nat) (h : 256 ≤ off) :
    accepts off width = true ↔ (width = 1 ∨ width = 2 ∨ width = 4) ∧ off % width = 0 := by
  simp [accepts, frameAccepts, Config.frameOffset, Nat.not_lt.2 h, or_assoc]

theorem writeCmd_answers (w : Word) (s : State) : ∃ t, writeCmd w s = .next t := by
  cases hd : decode w with
  | ok i => exact ⟨_, (writeCmd_legal hd s).trans (exec_eq i s)⟩
  | error e => exact ⟨_, writeCmd_illegal hd s⟩

/-- An accepted write always answers: no command is a fault (R60, R138). -/
theorem windowWrite_answers (off : Nat) (w : Word) (s : State) : ∃ t, windowWrite off w s = .next t := by
  unfold windowWrite regWrite
  split
  · split
    · exact writeCmd_answers w s
    all_goals exact ⟨_, rfl⟩
  · exact ⟨_, rfl⟩

section
variable {s : State} {addr width : Nat} {w : Word} {a : Access}

theorem busAccess_outside (ha : a = .read addr width ∨ a = .write addr width w) (h : ¬ s.inWindow addr = true) :
    busAccess a s = .next s := by
  rcases ha with rfl | rfl <;> simp [busAccess, h]

theorem busAccess_rejected (ha : a = .read addr width ∨ a = .write addr width w) (h : s.inWindow addr = true)
    (hacc : ¬ accepts (addr - s.base) width = true) : busAccess a s = .fault (.busError addr) := by
  rcases ha with rfl | rfl <;> simp [busAccess, h, hacc]

theorem busAccess_accepted (ha : a = .read addr width ∨ a = .write addr width w) (h : s.inWindow addr = true)
    (hacc : accepts (addr - s.base) width = true) : ∃ t, busAccess a s = .next t := by
  rcases ha with rfl | rfl
  · exact ⟨windowRead (addr - s.base) width s, by simp [busAccess, h, hacc]⟩
  · obtain ⟨t, ht⟩ := windowWrite_answers (addr - s.base) w s
    exact ⟨t, by simp [busAccess, h, hacc, ht]⟩

/-- In the window an access is a bus error exactly where it is not accepted (R142). -/
theorem busAccess_fault_iff (ha : a = .read addr width ∨ a = .write addr width w) (h : s.inWindow addr = true) :
    busAccess a s = .fault (.busError addr) ↔ ¬ accepts (addr - s.base) width = true := by
  refine ⟨fun hf hacc => ?_, busAccess_rejected ha h⟩
  obtain ⟨t, ht⟩ := busAccess_accepted ha h hacc
  rw [hf] at ht
  cases ht

theorem busAccess_fault_or_next (ha : a = .read addr width ∨ a = .write addr width w) :
    busAccess a s = .fault (.busError addr) ∨ ∃ t, busAccess a s = .next t := by
  by_cases h : s.inWindow addr = true
  · by_cases hacc : accepts (addr - s.base) width = true
    · exact .inr (busAccess_accepted ha h hacc)
    · exact .inl (busAccess_rejected ha h hacc)
  · exact .inr ⟨s, busAccess_outside ha h⟩

end

/-- Settles O35: in the window a bus error is an access that is not accepted, and each area has its own rule for that. -/
theorem windowDecoding : Obligations.WindowDecoding := by
  intro s addr width w a ha
  refine ⟨fun hout => ?_, fun hlo hhi => ?_, fun hlo hhi => ?_, busAccess_fault_or_next ha⟩
  · exact busAccess_outside ha (by rw [State.inWindow_iff]; omega)
  · rw [busAccess_fault_iff ha ((s.inWindow_iff addr).2 (by omega)), accepts_register_iff width (by omega)]
  · rw [busAccess_fault_iff ha ((s.inWindow_iff addr).2 (by omega)), accepts_frame_iff width (by omega)]

end Sys2Proof.Machine
end

section
/-! SUPPORT. Reads of written frame bytes draw nothing and return the bytes in order (R57, R58), and writes reach four registers
only (R61). -/

namespace Sys2Proof.Machine

/-! ### Frame reads -/

/-- Only a byte of the buffer has a value. -/
theorem frameByte_lt {s : State} {i : Nat} {b : Byte} (h : s.frameByte i = some b) : i < 256 := by
  by_contra hi
  have hunwritten : s.frameWrittenAt i = false := BitVec.getLsbD_of_ge s.frameWritten i (Nat.not_lt.1 hi)
  simp [State.frameByte, hunwritten] at h

theorem frameReads_written {n i : Nat} {s : State} {f : Nat → Byte} (h : ∀ k, k < n → s.frameByte (i + k) = some (f k)) :
    frameReads n i s = ((List.range n).map f, s) := by
  induction n generalizing i f with
  | zero => rfl
  | succ n ih =>
    have hfirst : s.frameByte i = some (f 0) := h 0 (Nat.succ_pos n)
    have hrest : frameReads n (i + 1) s = ((List.range n).map (fun k => f (k + 1)), s) :=
      ih fun k hk => by rw [Nat.add_assoc, Nat.add_comm 1 k]; exact h (k + 1) (Nat.succ_lt_succ hk)
    simp [frameReads, frameRead_written (frameByte_lt hfirst) hfirst, hrest, List.range_succ_eq_map,
      Function.comp_def]

/-- A read in the frame area is the `FrameRead`s of its bytes (R56). -/
theorem windowRead_frame (i width : Nat) (s : State) :
    windowRead (0x100 + i) width s =
      { (frameReads width i s).2 with rdata := wordOfBytes (frameReads width i s).1 } := by
  simp [windowRead, frameAnswer, answer, Config.frameOffset]

theorem windowRead_written {n i : Nat} {s : State} {f : Nat → Byte} (h : ∀ k, k < n → s.frameByte (i + k) = some (f k)) :
    windowRead (0x100 + i) n s = { s with rdata := wordOfBytes ((List.range n).map f) } := by
  rw [windowRead_frame, frameReads_written h]

/-- A read that touches no unwritten byte draws nothing; a register read touches none. -/
theorem windowRead_draws {off width : Nat} {s : State}
    (h : ∀ i, 0x100 + i < off + width → off ≤ 0x100 + i → (s.frameByte i).isSome = true) :
    (windowRead off width s).draws = s.draws := by
  by_cases hoff : off < 256
  · rw [windowRead_register width s hoff]
  · obtain ⟨i, rfl⟩ := Nat.exists_eq_add_of_le (Nat.not_lt.1 hoff)
    have hbytes : ∀ k, k < width → s.frameByte (i + k) = some ((s.frameByte (i + k)).getD 0) := fun k hk => by
      obtain ⟨b, hb⟩ := Option.isSome_iff_exists.1 (h (i + k) (by omega) (by omega))
      rw [hb, Option.getD_some]
    rw [windowRead_written (f := fun k => (s.frameByte (i + k)).getD 0) hbytes]

/-! ### Side effects -/

/-- A read that answers lies outside the window, or is an accepted one in it. -/
theorem busAccess_read_cases {s t : State} {addr width : Nat} (h : busAccess (.read addr width) s = .next t) :
    t = s ∨ (s.base ≤ addr ∧ t = windowRead (addr - s.base) width s) := by
  simp only [busAccess] at h
  split at h
  · cases h; exact .inl rfl
  · next hin =>
    split at h <;> cases h
    exact .inr ⟨((s.inWindow_iff addr).1 (by simpa using hin)).1, rfl⟩

/-- A write that answers lies outside the window, or is an accepted one in it. -/
theorem busAccess_write_cases {s t : State} {addr width : Nat} {w : Word} (h : busAccess (.write addr width w) s = .next t) :
    t = s ∨ (s.base ≤ addr ∧ windowWrite (addr - s.base) w s = .next t) := by
  simp only [busAccess] at h
  split at h
  · cases h; exact .inl rfl
  · next hin =>
    split at h
    · exact .inr ⟨((s.inWindow_iff addr).1 (by simpa using hin)).1, h⟩
    · cases h

/-- Only `CMD`, `OPND`, `STATUS` and `CFG` react to a write (R61). -/
theorem windowWrite_ignored {off : Nat} (w : Word) (s : State) (hcmd : off ≠ Reg.cmd.offset)
    (hopnd : off ≠ Reg.opnd.offset) (hstatus : off ≠ Reg.status.offset) (hcfg : off ≠ Reg.cfg.offset) :
    windowWrite off w s = .next s := by
  unfold windowWrite regWrite
  split
  · split
    · next hr => exact absurd (regAt_some hr) hcmd
    · next hr => exact absurd (regAt_some hr) hopnd
    · next hr => exact absurd (regAt_some hr) hstatus
    · next hr => exact absurd (regAt_some hr) hcfg
    all_goals rfl
  · rfl

/-- Settles O36: a read keeps all but the answer and the draws, and the draws too where every frame byte of it is written; a
write at another offset is ignored. -/
theorem windowSideEffects : Obligations.WindowSideEffects := by
  refine ⟨fun s t addr width h => ?_, fun s t addr width w h hcmd hopnd hstatus hcfg => ?_⟩
  · rcases busAccess_read_cases h with rfl | ⟨hlo, rfl⟩
    · exact ⟨t.draws, t.rdata, rfl, fun _ => rfl⟩
    · obtain ⟨d, v, hk⟩ := windowRead_keeps (addr - s.base) width s
      refine ⟨d, v, hk, fun hwritten => ?_⟩
      have hdraws := windowRead_draws (off := addr - s.base) (width := width) fun i hi hi' =>
        hwritten i (by omega) (by omega)
      rwa [hk] at hdraws
  · rcases busAccess_write_cases h with rfl | ⟨hlo, hw⟩
    · rfl
    · rw [windowWrite_ignored w s] at hw
      · cases hw; rfl
      all_goals
        simp only [Reg.offset]
        omega

/-! ### Little-endian words -/

/-- Bit `j` of a word read is bit `j % 8` of byte `j / 8`, and 0 beyond the bytes (R58). -/
theorem wordOfBytes_getLsbD (bs : List Byte) (j : Nat) :
    (wordOfBytes bs).getLsbD j = (decide (j < 32) && (bs.getD (j / 8) 0).getLsbD (j % 8)) := by
  induction bs generalizing j with
  | nil => simp [wordOfBytes]
  | cons b bs ih =>
    simp only [wordOfBytes, BitVec.getLsbD_or, BitVec.getLsbD_shiftLeft, BitVec.getLsbD_setWidth, ih]
    by_cases hj : j < 8
    · simp [hj, Nat.div_eq_of_lt hj, Nat.mod_eq_of_lt hj]
    · obtain ⟨m, rfl⟩ := Nat.exists_eq_add_of_le' (Nat.not_lt.1 hj)
      by_cases hm : m + 8 < 32
      · simp [hm, show m < 32 by omega]
      · simp [hm]

theorem wordOfBytes_byte {n k : Nat} (f : Nat → Byte) (hn : n ≤ 4) (hk : k < n) :
    (wordOfBytes ((List.range n).map f)).extractLsb' (8 * k) 8 = f k := by
  ext i hi
  rw [BitVec.getElem_extractLsb', wordOfBytes_getLsbD, show (8 * k + i) / 8 = k by omega,
    show (8 * k + i) % 8 = i by omega]
  simp [hk, hi, show 8 * k + i < 32 by omega]

theorem wordOfBytes_above {n j : Nat} (f : Nat → Byte) (hj : 8 * n ≤ j) :
    (wordOfBytes ((List.range n).map f)).getLsbD j = false := by
  rw [wordOfBytes_getLsbD]
  simp [show n ≤ j / 8 by omega]

/-- Settles O37: the access is accepted, its bytes are read without a draw, and `wordOfBytes` puts each in its place. -/
theorem frameReadsLittleEndian : Obligations.FrameReadsLittleEndian := by
  intro s i n f hn halign hfit hbytes
  have hmod : (0x100 + i) % n = 0 := by rcases hn with rfl | rfl | rfl <;> omega
  have hacc : accepts (0x100 + i) n = true := (accepts_frame_iff n (Nat.le_add_right _ i)).2 ⟨hn, hmod⟩
  refine ⟨wordOfBytes ((List.range n).map f), ?_, fun k => wordOfBytes_byte f (by omega), fun j => wordOfBytes_above f⟩
  rw [Nat.add_assoc, busAccess_read s (by omega) hacc, windowRead_written hbytes]

end Sys2Proof.Machine
end

section
/-! SUPPORT. O45: the schedule, the host's accesses and `BASE` belong to no unit, so only the taking of an event or of an access
changes them. -/

namespace Sys2Proof.Machine

/-- `t` has what is left to happen in `s`, at the same `BASE`. -/
structure KeepsPending (s t : State) : Prop where
  sched : t.sched = s.sched
  base : t.base = s.base
  hostOps : t.hostOps = s.hostOps

theorem KeepsPending.refl (s : State) : KeepsPending s s := ⟨rfl, rfl, rfl⟩

theorem KeepsPending.trans {s t u : State} (h : KeepsPending s t) (h' : KeepsPending t u) : KeepsPending s u :=
  ⟨h'.sched.trans h.sched, h'.base.trans h.base, h'.hostOps.trans h.hostOps⟩

theorem keepsPending_of_frameUnit {s t : State} (h : restoreFrameUnit s t = s) : KeepsPending s t :=
  ⟨(congrArg State.sched h :), (congrArg State.base h :), (congrArg State.hostOps h :)⟩

theorem keepsPending_of_sleepUnit {s t : State} (h : restoreSleepUnit s t = s) : KeepsPending s t :=
  ⟨(congrArg State.sched h :), (congrArg State.base h :), (congrArg State.hostOps h :)⟩

/-- A command writes within the footprint of its unit. -/
theorem awakeEffect_keepsPending (i : Instr) (s : State) : KeepsPending s (awakeEffect i s) := by
  cases i with
  | crcInit | crcByte | crcVerify => exact ⟨rfl, rfl, rfl⟩
  | frmStart | frmByte | fenc | frmFixed | frmCrc | frmRaw | frmDec2 | frmDec =>
    exact keepsPending_of_frameUnit (restoreFrameUnit_awakeEffect rfl s)
  | slpInit => exact keepsPending_of_sleepUnit (restoreSleepUnit_awakeEffect (.inl rfl) s)
  | slpSleep c => exact keepsPending_of_sleepUnit (restoreSleepUnit_awakeEffect (.inr ⟨c, rfl⟩) s)

theorem busAccess_keepsPending {a : Access} {s t : State} (h : busAccess a s = .next t) : KeepsPending s t := by
  rcases busAccess_cases h with rfl | ⟨d, w, rfl⟩ | ⟨i, hi⟩ | rfl | ⟨w, rfl⟩ | ⟨w, rfl⟩ | ⟨w, rfl⟩
  case inr.inr.inl =>
    rcases exec_cases hi with ⟨_, rfl⟩ | ⟨_, rfl⟩
    · exact awakeEffect_keepsPending i s
    · exact ⟨rfl, rfl, rfl⟩
  all_goals exact ⟨rfl, rfl, rfl⟩

theorem driveReset_keepsPending (level : Bool) (s : State) : KeepsPending s (driveReset level s) := by
  unfold driveReset
  dsimp only
  split <;> exact ⟨rfl, rfl, rfl⟩

/-- What is pending after a move: all of it, or, when the host moved in `AWAKE`, all but its first access (R63). -/
theorem agentMove_pending {e : Event} {s t : State} (h : agentMove e s = .next t) :
    KeepsPending s t ∨
      (s.fsm = .awake ∧ e = .host ∧ ∃ a ops, s.hostOps = a :: ops ∧ KeepsPending { s with hostOps := ops } t) := by
  cases e with
  | host =>
    rcases hostMove_cases h with ⟨rfl, _⟩ | ⟨hawake, a, ops, hops, hacc⟩
    · exact .inl (.refl t)
    · exact .inr ⟨hawake, rfl, a, ops, hops, busAccess_keepsPending hacc⟩
  | second a => exact .inl (busAccess_keepsPending h)
  | tick => cases h; exact .inl ⟨tick_sched s, tick_base s, tick_hostOps s⟩
  | block => cases h; exact .inl ⟨blockStep_sched s, blockStep_base s, blockStep_hostOps s⟩
  | vlow level => cases h; exact .inl ⟨rfl, rfl, rfl⟩
  | rstN level => cases h; exact .inl (driveReset_keepsPending level s)

/-- The hold of `rst_n` leaves what is pending (R157; notes/assumptions/11.md). -/
theorem resetHold_keepsPending (released : Bool) (u : State) :
    KeepsPending u (if released then u else resetBlock u) := by
  split <;> exact ⟨rfl, rfl, rfl⟩

/-- A step takes one event, and at most one access from the front of the host's list (R63). -/
theorem step_pending {s t : State} (h : step s = .next t) :
    t.sched = s.sched.tail ∧ t.base = s.base
      ∧ (t.hostOps = s.hostOps
          ∨ (s.fsm = .awake ∧ s.sched.head? = some .host ∧ ∃ a, s.hostOps = a :: t.hostOps)) := by
  rcases step_cases h with ⟨hs, _, rfl⟩ | ⟨e, rest, u, hs, hm, rfl⟩
  · exact ⟨by rw [hs]; rfl, rfl, .inl rfl⟩
  · rw [hs]
    have hhold := resetHold_keepsPending s.rstN u
    rcases agentMove_pending hm with hk | ⟨hawake, rfl, a, ops, hops, hk⟩
    · obtain ⟨hsched, hbase, hrest⟩ := hk.trans hhold
      exact ⟨hsched, hbase, .inl hrest⟩
    · obtain ⟨hsched, hbase, hrest⟩ := hk.trans hhold
      exact ⟨hsched, hbase, .inr ⟨hawake, rfl, a, hops.trans (congrArg (a :: ·) hrest.symm)⟩⟩

/-! ### Moves without an access -/

/-- The supply level is driven (R36), under the hold of `rst_n` (R157). -/
theorem step_vlow {s : State} {level : Bool} {rest : List Event} (hs : s.sched = .vlow level :: rest) :
    step s = .next (if s.rstN = true then { s with sched := rest, vlow := level }
      else resetBlock { s with sched := rest, vlow := level }) := by
  simp only [step, hs, takeEvent, agentMove]
  split <;> rfl

theorem driveReset_high {s : State} (h : s.rstN = true) : driveReset true s = s := by
  cases s
  cases h
  rfl

theorem hostMove_nil {s : State} (h : s.hostOps = []) : hostMove s = .next s := by
  simp [hostMove, h]

theorem step_nil {s : State} (hs : s.sched = []) (hf : s.fsm ≠ .forcedSleep) : step s = .next s := by
  simp [step, hs, noEvent, hf]

/-- Settles O45, from what is pending after a step and the moves that make no access. -/
theorem accessesInOrder : Obligations.AccessesInOrder := by
  refine ⟨fun s t => step_pending, fun s rest => ⟨fun level => step_vlow, fun hs hr => ?_, fun hs ho hr => ?_⟩,
    fun s => step_nil⟩
  · rw [step_cons hs hr, agentMove, driveReset_high (s := { s with sched := rest }) hr]
  · rw [step_cons hs hr, agentMove, hostMove_nil (s := { s with sched := rest }) ho]

end Sys2Proof.Machine
end

section
/-! SUPPORT. The rows of the opcode map (R76, R77): which words match a row, by their fields as numbers, the word of an
instruction as a number, and the decoder as the choice of a row. -/

namespace Sys2Proof

/-! ### A mask and its match, field by field (R77) -/

/-- Two words with the same four bytes are the same word. -/
theorem word_eq_iff_bytes {v w : Word} :
    v = w ↔ opcField v = opcField w ∧ rsvField v = rsvField w ∧ byteField v = byteField w
      ∧ immHighField v = immHighField w := by
  have hv := v.isLt
  have hw := w.isLt
  simp only [← BitVec.toNat_inj, opcField_toNat, rsvField_toNat, byteField_toNat, immHighField_toNat]
  omega

/-- A mask acts on each byte of the word by itself. -/
theorem rowMatches_iff_bytes {w : Word} {m : Mnemonic} :
    rowMatches w m = true ↔
      opcField w &&& opcField (maskMatch m).1 = opcField (maskMatch m).2
      ∧ rsvField w &&& rsvField (maskMatch m).1 = rsvField (maskMatch m).2
      ∧ byteField w &&& byteField (maskMatch m).1 = byteField (maskMatch m).2
      ∧ immHighField w &&& immHighField (maskMatch m).1 = immHighField (maskMatch m).2 := by
  simp only [rowMatches, beq_iff_eq, word_eq_iff_bytes, opcField, rsvField, byteField, immHighField, BitVec.extractLsb'_and]

/-- The bytes of each row: `opc` and `rsv` are compared in full, and the others as far as the format fixes them at 0. -/
theorem maskMatch_bytes (m : Mnemonic) :
    opcField (maskMatch m).1 = BitVec.allOnes 8 ∧ rsvField (maskMatch m).1 = BitVec.allOnes 8
      ∧ byteField (maskMatch m).1 = (if m.format = .n then BitVec.allOnes 8 else 0#8)
      ∧ immHighField (maskMatch m).1 = (if m.format = .h then 0#8 else BitVec.allOnes 8)
      ∧ (opcField (maskMatch m).2).toNat = (maskMatch m).2.toNat ∧ rsvField (maskMatch m).2 = 0#8
      ∧ byteField (maskMatch m).2 = 0#8 ∧ immHighField (maskMatch m).2 = 0#8 := by
  cases m <;> decide

/-- A word matches a row when `opc` is the row's, `rsv` is 0, and the bits outside the operand of the row's format are 0. -/
theorem rowMatches_iff {w : Word} {m : Mnemonic} :
    rowMatches w m = true ↔
      w.toNat % 256 = (maskMatch m).2.toNat ∧ w.toNat / 256 % 256 = 0
      ∧ (m.format = .n → w.toNat / 65536 = 0) ∧ (m.format = .b → w.toNat / 16777216 = 0) := by
  obtain ⟨hopc, hrsv, hbyte, hhigh, hopc', hrsv', hbyte', hhigh'⟩ := maskMatch_bytes m
  have hw := w.isLt
  rw [rowMatches_iff_bytes, hopc, hrsv, hbyte, hhigh, hrsv', hbyte', hhigh']
  cases m.format <;>
    simp only [reduceCtorEq, if_true, if_false, true_implies, false_implies, and_true, BitVec.and_allOnes, BitVec.and_zero,
      ← BitVec.toNat_inj, hopc', opcField_toNat, rsvField_toNat, byteField_toNat, immHighField_toNat, BitVec.toNat_ofNat]
  case n => omega

/-! ### Instructions by mnemonic and operand field -/

@[simp] theorem Mnemonic.instr_mnemonic (m : Mnemonic) (v : Nat) : (m.instr v).mnemonic = m := by
  cases m <;> rfl

/-- An instruction is its mnemonic's with its operand. -/
@[simp] theorem Instr.mnemonic_instr_operand (i : Instr) : i.mnemonic.instr (i.operand.getD 0) = i := by
  cases i <;> simp [Instr.mnemonic, Instr.operand, Mnemonic.instr]

@[simp] theorem Instr.line_wellFormed (i : Instr) : i.line.wellFormed = true := by
  cases i <;> simp [Instr.line, CmdLine.wellFormed, Instr.mnemonic, Mnemonic.format, Instr.operand]
  all_goals omega

/-- A well-formed line has its format's operand, within its range (R81). -/
theorem CmdLine.wellFormed_cases {l : CmdLine} (h : l.wellFormed = true) :
    (l.op.format = .n ∧ l.operand = none) ∨ (∃ b < 256, l.op.format = .b ∧ l.operand = some b)
      ∨ (∃ v < 65536, l.op.format = .h ∧ l.operand = some v) := by
  unfold wellFormed at h
  split at h
  · next hf ho => exact .inl ⟨hf, ho⟩
  · next b hf ho => exact .inr (.inl ⟨b, of_decide_eq_true h, hf, ho⟩)
  · next v hf ho => exact .inr (.inr ⟨v, of_decide_eq_true h, hf, ho⟩)
  · cases h

/-- The operand of a well-formed line fits its format's field. -/
theorem CmdLine.operand_bounds {l : CmdLine} (h : l.wellFormed = true) :
    (l.op.format = .n → l.operand.getD 0 = 0) ∧ (l.op.format = .b → l.operand.getD 0 < 256)
      ∧ l.operand.getD 0 < 65536 := by
  obtain ⟨hf, ho⟩ | ⟨b, hb, hf, ho⟩ | ⟨v, hv, hf, ho⟩ := wellFormed_cases h
  · simp [hf, ho]
  · simpa [hf, ho, hb] using hb.trans (by decide)
  · simpa [hf, ho] using hv

theorem Mnemonic.instr_of_format_n {m : Mnemonic} (hf : m.format = .n) (v : Nat) : m.instr 0 = m.instr v := by
  revert hf
  cases m <;> simp [format, instr]

theorem Mnemonic.instr_of_format_b {m : Mnemonic} (hf : m.format = .b) (v : Nat) : m.instr (v % 256) = m.instr v := by
  revert hf
  cases m <;> simp [format, instr, ← BitVec.toNat_inj]

/-- A number that fits the format's operand is kept whole. -/
theorem Mnemonic.instr_operand {m : Mnemonic} {v : Nat} (hn : m.format = .n → v = 0) (hb : m.format = .b → v < 256)
    (hv : v < 65536) : (m.instr v).operand.getD 0 = v := by
  cases m <;> simp [format] at hn hb <;> simp [instr, Instr.operand] <;> omega

/-- R82 as a number: the opcode of the row, and the operand from bit 16 on. -/
theorem encode_toNat (i : Instr) : (encode i).toNat = (maskMatch i.mnemonic).2.toNat + 65536 * i.operand.getD 0 := by
  cases i <;> simp only [encode, encodeN_toNat, encodeB_toNat, encodeH_toNat] <;> rfl

/-! ### The decoder by rows -/

/-- The decoder at the opcode of a row: the check of the row's format, and the operand field taken from bit 16 on. -/
def decodeRow (m : Mnemonic) (w : Word) : Except DecodeError Instr :=
  match m.format with
  | .n => decodeN w (m.instr 0)
  | .b => decodeB w (fun b => m.instr b.toNat)
  | .h => decodeH w (fun h => m.instr h.toNat)

/-- The opcode of a row selects that row. -/
theorem decode_eq_decodeRow {w : Word} {m : Mnemonic} (h : w.toNat % 256 = (maskMatch m).2.toNat) :
    decode w = decodeRow m w := by
  rw [← opcField_toNat] at h
  cases m <;> simp [decode, h, maskMatch, decodeRow, Mnemonic.format, Mnemonic.instr]

/-- An opcode of no row is rejected. -/
theorem decode_unassigned {w : Word} (h : ∀ m, w.toNat % 256 ≠ (maskMatch m).2.toNat) :
    decode w = .error (.unassignedOpcode (opcField w)) := by
  simp only [← opcField_toNat] at h
  unfold decode
  split
  · next hw => exact absurd hw (h .crcInit)
  · next hw => exact absurd hw (h .crcByte)
  · next hw => exact absurd hw (h .crcVerify)
  · next hw => exact absurd hw (h .frmStart)
  · next hw => exact absurd hw (h .frmByte)
  · next hw => exact absurd hw (h .fenc)
  · next hw => exact absurd hw (h .frmFixed)
  · next hw => exact absurd hw (h .frmCrc)
  · next hw => exact absurd hw (h .frmRaw)
  · next hw => exact absurd hw (h .frmDec2)
  · next hw => exact absurd hw (h .frmDec)
  · next hw => exact absurd hw (h .slpInit)
  · next hw => exact absurd hw (h .slpSleep)
  · rfl

/-- The check of a row's format is that the word matches the row, and the operand is the field from bit 16 on. -/
theorem decodeRow_ok_iff {w : Word} {m : Mnemonic} {i : Instr} (h : w.toNat % 256 = (maskMatch m).2.toNat) :
    decodeRow m w = .ok i ↔ rowMatches w m = true ∧ m.instr (w.toNat / 65536) = i := by
  rw [rowMatches_iff, decodeRow]
  cases hf : m.format with
  | n =>
    have hrest : w.toNat / 256 = 0 ↔ w.toNat / 256 % 256 = 0 ∧ w.toNat / 65536 = 0 := by omega
    simp [decodeN_ok_iff, h, hrest, m.instr_of_format_n hf (w.toNat / 65536), and_assoc]
  | b => simp [decodeB_ok_iff, h, byteField_toNat, m.instr_of_format_b hf, and_assoc]
  | h => simp [decodeH_ok_iff, h, immField_toNat]

/-- What a word decodes to: the instruction of the row that it matches, with the field from bit 16 on as its operand. -/
theorem decode_ok_iff {w : Word} {i : Instr} :
    decode w = .ok i ↔ ∃ m, rowMatches w m = true ∧ m.instr (w.toNat / 65536) = i := by
  constructor
  · intro hd
    by_cases ha : ∃ m, w.toNat % 256 = (maskMatch m).2.toNat
    · obtain ⟨m, hm⟩ := ha
      exact ⟨m, (decodeRow_ok_iff hm).1 (decode_eq_decodeRow hm ▸ hd)⟩
    · rw [decode_unassigned (not_exists.1 ha)] at hd
      cases hd
  · rintro ⟨m, hm⟩
    have hopc := (rowMatches_iff.1 hm.1).1
    rw [decode_eq_decodeRow hopc]
    exact (decodeRow_ok_iff hopc).2 hm

theorem decode_of_rowMatches {w : Word} {m : Mnemonic} (h : rowMatches w m = true) :
    decode w = .ok (m.instr (w.toNat / 65536)) :=
  decode_ok_iff.2 ⟨m, h, rfl⟩

/-- A legal word matches the row of its mnemonic (R77). -/
theorem rowMatches_of_decode {w : Word} {i : Instr} (h : decode w = .ok i) :
    rowMatches w i.mnemonic = true ∧ i.mnemonic.instr (w.toNat / 65536) = i := by
  obtain ⟨m, hm, rfl⟩ := decode_ok_iff.1 h
  simpa using hm

/-- A word is illegal when it matches no row (R77). -/
theorem decode_error_iff {w : Word} : (∃ e, decode w = .error e) ↔ ∀ m, rowMatches w m = false := by
  constructor
  · rintro ⟨e, he⟩ m
    refine Bool.eq_false_iff.2 fun hm => ?_
    rw [decode_of_rowMatches hm] at he
    cases he
  · intro hno
    cases hd : decode w with
    | error e => exact ⟨e, rfl⟩
    | ok i => exact absurd (rowMatches_of_decode hd).1 (by simp [hno])

end Sys2Proof
end

section
/-! SUPPORT. O1 to O6: encoded words, the decoder against the table, illegal words and command lines (spec/30_encoding.md). -/

namespace Sys2Proof

/-! ### Encoded words and the table -/

/-- The word of an instruction matches its row. -/
theorem rowMatches_encode (i : Instr) : rowMatches (encode i) i.mnemonic = true :=
  rowMatches_iff.2 <| match i with
  | .crcInit => Laws.EncodeFormat.crcInit
  | .crcByte b => Laws.EncodeFormat.crcByte b
  | .crcVerify h => Laws.EncodeFormat.crcVerify h
  | .frmStart => Laws.EncodeFormat.frmStart
  | .frmByte b => Laws.EncodeFormat.frmByte b
  | .fenc => Laws.EncodeFormat.fenc
  | .frmFixed => Laws.EncodeFormat.frmFixed
  | .frmCrc => Laws.EncodeFormat.frmCrc
  | .frmRaw b => Laws.EncodeFormat.frmRaw b
  | .frmDec2 b => Laws.EncodeFormat.frmDec2 b
  | .frmDec b => Laws.EncodeFormat.frmDec b
  | .slpInit => Laws.EncodeFormat.slpInit
  | .slpSleep h => Laws.EncodeFormat.slpSleep h

theorem maskMatch_opcode_lt (m : Mnemonic) : (maskMatch m).2.toNat < 256 := by
  cases m <;> decide

/-- R82: the operand stands from bit 16 on. -/
theorem encode_operandField (i : Instr) : (encode i).toNat / 65536 = i.operand.getD 0 := by
  have := maskMatch_opcode_lt i.mnemonic
  rw [encode_toNat]
  omega

/-- Settles O1: the word matches the row of its instruction, and its operand field is the operand. -/
theorem decodeOfEncode : Obligations.DecodeOfEncode := by
  intro i
  rw [decode_of_rowMatches (rowMatches_encode i), encode_operandField, Instr.mnemonic_instr_operand]

/-- Settles O2: the row fixes the opcode and every bit outside the operand, so the word has the value of R82. -/
theorem encodeOfDecode : Obligations.EncodeOfDecode := by
  intro w i hd
  obtain ⟨hrow, hi⟩ := rowMatches_of_decode hd
  obtain ⟨hopc, hrsv, hn, hb⟩ := rowMatches_iff.1 hrow
  have hoperand : i.operand.getD 0 = w.toNat / 65536 := by
    rw [← hi]
    exact Mnemonic.instr_operand hn (fun hf => by have := hb hf; omega) (by omega)
  apply BitVec.eq_of_toNat_eq
  rw [encode_toNat, ← hopc, hoperand]
  omega

/-- Settles O3: a word decodes to an instruction of a row exactly when it matches the row, and to one instruction only. -/
theorem decodeFollowsTable : Obligations.DecodeFollowsTable := by
  refine fun w => ⟨fun m => ⟨fun hm => ?_, ?_⟩, decode_error_iff.symm, fun m m' hm hm' => ?_⟩
  · exact ⟨_, decode_of_rowMatches hm, m.instr_mnemonic _⟩
  · rintro ⟨i, hd, rfl⟩
    exact (rowMatches_of_decode hd).1
  · have hd := (decode_of_rowMatches hm).symm.trans (decode_of_rowMatches hm')
    simpa using congrArg Instr.mnemonic (Except.ok.inj hd)

/-! ### Illegal words (R78) -/

/-- The opcodes that R78 lists as unassigned. -/
def UnassignedOpcode (n : Nat) : Prop :=
  n = 0x00 ∨ (0x04 ≤ n ∧ n ≤ 0x0F) ∨ (0x18 ≤ n ∧ n ≤ 0x1F) ∨ 0x22 ≤ n

/-- R78 lists as unassigned what R77 gives no row. -/
theorem unassignedOpcode_iff {n : Nat} : UnassignedOpcode n ↔ ∀ m, n ≠ (maskMatch m).2.toNat := by
  unfold UnassignedOpcode
  constructor
  · rintro hu m rfl
    cases m <;> revert hu <;> decide
  · intro h
    have hcrc : n ≠ 0x01 ∧ n ≠ 0x02 ∧ n ≠ 0x03 := ⟨h .crcInit, h .crcByte, h .crcVerify⟩
    have hfrm : n ≠ 0x10 ∧ n ≠ 0x11 ∧ n ≠ 0x12 ∧ n ≠ 0x13 ∧ n ≠ 0x14 ∧ n ≠ 0x15 ∧ n ≠ 0x16 ∧ n ≠ 0x17 :=
      ⟨h .frmStart, h .frmByte, h .fenc, h .frmFixed, h .frmCrc, h .frmRaw, h .frmDec2, h .frmDec⟩
    have hslp : n ≠ 0x20 ∧ n ≠ 0x21 := ⟨h .slpInit, h .slpSleep⟩
    omega

/-- R78 names formats N and B by their opcodes (R76). -/
theorem format_n_iff (m : Mnemonic) : m.format = .n ↔ (maskMatch m).2.toNat ∈ [0x01, 0x10, 0x12, 0x13, 0x14, 0x20] := by
  cases m <;> decide

theorem format_b_iff (m : Mnemonic) : m.format = .b ↔ (maskMatch m).2.toNat ∈ [0x02, 0x11, 0x15, 0x16, 0x17] := by
  cases m <;> decide

/-- At the opcode of a row, a word is illegal when it does not match that row. -/
theorem decode_error_iff_of_opcode {w : Word} {m : Mnemonic} (h : w.toNat % 256 = (maskMatch m).2.toNat) :
    (∃ e, decode w = .error e) ↔ ¬ rowMatches w m = true := by
  rw [decode_eq_decodeRow h]
  cases hd : decodeRow m w with
  | error e => exact iff_of_true ⟨e, rfl⟩ fun hm => by cases hd.symm.trans ((decodeRow_ok_iff h).2 ⟨hm, rfl⟩)
  | ok i => simpa using ((decodeRow_ok_iff h).1 hd).1

/-- Settles O4: an unassigned opcode is no row's; at the opcode of a row, R78 lists the ways not to match that row. -/
theorem illegalWords : Obligations.IllegalWords := by
  refine fun w => ⟨?_, fun e s hd => Machine.writeCmd_illegal hd s⟩
  change _ ↔ UnassignedOpcode (w.toNat % 256) ∨ _
  by_cases hu : UnassignedOpcode (w.toNat % 256)
  · exact iff_of_true ⟨_, decode_unassigned (unassignedOpcode_iff.1 hu)⟩ (.inl hu)
  · obtain ⟨m, hm⟩ : ∃ m, w.toNat % 256 = (maskMatch m).2.toNat := by
      simpa [unassignedOpcode_iff] using hu
    rw [decode_error_iff_of_opcode hm, rowMatches_iff, format_n_iff, format_b_iff, ← hm]
    tauto

/-! ### Command lines (R81, R82) -/

/-- Settles O6: the operand of a well-formed line fits its field, so `encode_toNat` has it whole. -/
theorem assembledWord : Obligations.AssembledWord := by
  intro l
  constructor
  · intro hl
    refine ⟨_, if_pos hl, ?_⟩
    obtain ⟨hn, hb, hv⟩ := CmdLine.operand_bounds hl
    rw [encode_toNat, Mnemonic.instr_mnemonic, Mnemonic.instr_operand hn hb hv]
  · intro hl
    simp [assemble, hl]

/-! ### Sample words -/

/-- Settles O5: words of spec/95_test_vectors.md; the names of the rejections are the model's own (notes/assumptions/16.md). -/
theorem sampleWordsDecode : Obligations.SampleWordsDecode := by
  unfold Obligations.SampleWordsDecode
  decide

end Sys2Proof
end

section
/-! SUPPORT. O7: the parser reads back what the disassembler prints (R81, R84). -/

namespace Sys2Proof.Machine

/-! ### Hexadecimal numerals -/

theorem digitValue_hexDigit {k : Nat} (hk : k < 16) : digitValue 16 (hexDigit k) = some k := by
  revert k
  decide

/-- The value of the low `d` digits, after the digits already read. -/
theorem parseDigits_hexDigits (d n acc : Nat) :
    parseDigits 16 acc (hexDigits d n) = some (acc * 16 ^ d + n % 16 ^ d) := by
  induction d generalizing acc with
  | zero => simp [hexDigits, parseDigits, Nat.mod_one]
  | succ d ih =>
    have hlast : n % 16 ^ (d + 1) = n / 16 ^ d % 16 * 16 ^ d + n % 16 ^ d := by
      rw [Nat.pow_succ, Nat.mod_mul, Nat.mul_comm, Nat.add_comm]
    simp only [hexDigits, parseDigits, digitValue_hexDigit (Nat.mod_lt _ (by decide : 0 < 16)), ih, hlast]
    congr 1
    ring

/-- At least one digit is printed, and as many as the number has. -/
theorem parseOperand_hexText {d n : Nat} (hn : n < 16 ^ (d + 1)) : parseOperand (hexText (d + 1) n) = some n := by
  calc parseOperand (hexText (d + 1) n) = parseDigits 16 0 (hexDigits (d + 1) n) := rfl
    _ = some n := by rw [parseDigits_hexDigits, Nat.mod_eq_of_lt hn, Nat.zero_mul, Nat.zero_add]

/-! ### Lines -/

theorem mnemonicText_ne_space (m : Mnemonic) : ∀ c ∈ mnemonicText m, (c != ' ') = true :=
  List.all_eq_true.1 (by cases m <;> rfl)

/-- No two mnemonics have one text. -/
theorem find_mnemonicText (m : Mnemonic) : allMnemonics.find? (fun m' => mnemonicText m' == mnemonicText m) = some m := by
  cases m <;> rfl

theorem parseLine_mnemonicText (m : Mnemonic) : parseLine (mnemonicText m) = some ⟨m, none⟩ := by
  have h := mnemonicText_ne_space m
  simp only [parseLine, List.takeWhile_eq_self_iff.2 h, List.dropWhile_eq_nil_iff.2 h, find_mnemonicText]

theorem parseLine_operand (m : Mnemonic) (op : List Char) :
    parseLine (mnemonicText m ++ ' ' :: op) = (parseOperand op).map (fun v => ⟨m, some v⟩) := by
  have h := mnemonicText_ne_space m
  have htake : (mnemonicText m ++ ' ' :: op).takeWhile (· != ' ') = mnemonicText m := by
    simp [List.takeWhile_append_of_pos h]
  have hdrop : (mnemonicText m ++ ' ' :: op).dropWhile (· != ' ') = ' ' :: op := by
    simp [List.dropWhile_append_of_pos h]
  simp only [parseLine, htake, hdrop, find_mnemonicText]

/-- The text of an instruction is read back as its line. -/
theorem parseLine_instrText (i : Instr) : parseLine (instrText i) = some i.line := by
  obtain ⟨hf, ho⟩ | ⟨b, hb, hf, ho⟩ | ⟨v, hv, hf, ho⟩ := CmdLine.wellFormed_cases i.line_wellFormed
  · simp only [Instr.line] at hf ho ⊢
    simp only [instrText, ho, parseLine_mnemonicText]
  · simp only [Instr.line] at hf ho ⊢
    simp only [instrText, hf, ho, parseLine_operand, parseOperand_hexText (d := 1) hb, Option.map_some]
  · simp only [Instr.line] at hf ho ⊢
    simp only [instrText, hf, ho, parseLine_operand, parseOperand_hexText (d := 3) hv, Option.map_some]

theorem assemble_line (i : Instr) : assemble i.line = some (encode i) := by
  rw [assemble, if_pos i.line_wellFormed]
  exact congrArg (some ∘ encode) i.mnemonic_instr_operand

/-- Settles O7: the text is read back as the line of the instruction, and a legal word is the word of its instruction. -/
theorem disassembleThenAssemble : Obligations.DisassembleThenAssemble := by
  intro w i hd
  rw [disassemble, hd]
  simp only [parseLine_instrText, Option.bind_some, assemble_line, encodeOfDecode w i hd]

end Sys2Proof.Machine
end

section
/-! SUPPORT. O8 to O10: the CRC as a function of its byte sequence (R90, R91, R96). -/

namespace Sys2Proof.Machine

/-! ### One mask per byte (R90) -/

/-- Bit positions compose at either end. -/
theorem crcShifts_succ (n : Nat) (c : Half) : crcShifts (n + 1) c = crcShift (crcShifts n c) := by
  induction n generalizing c with
  | zero => rfl
  | succ n ih => exact ih (crcShift c)

theorem ofNat_shiftLeft (w x n : Nat) : BitVec.ofNat w (x <<< n) = BitVec.ofNat w x <<< n := by
  apply BitVec.eq_of_toNat_eq
  simp [Nat.shiftLeft_eq]

/-- The low 16 bits of the unmasked shift are the masked shift of the low 16 bits: the test reads bit 15, and no bit moves
down. -/
theorem crcShift_ofNat (n : Nat) : crcShift (BitVec.ofNat 16 n) = BitVec.ofNat 16 (crcShiftWide n) := by
  have hmsb : (BitVec.ofNat 16 n).msb = n.testBit 15 := by
    rw [BitVec.msb_eq_getLsbD_last, BitVec.getLsbD_ofNat]
    rfl
  unfold crcShift crcShiftWide
  rw [hmsb]
  split
  · rw [BitVec.ofNat_xor, ofNat_shiftLeft, Config.crcPoly]
  · rw [ofNat_shiftLeft]

theorem crcShifts_ofNat (k n : Nat) : crcShifts k (BitVec.ofNat 16 n) = BitVec.ofNat 16 (Nat.repeat crcShiftWide k n) := by
  induction k with
  | zero => rfl
  | succ k ih => rw [crcShifts_succ, ih, crcShift_ofNat, Nat.repeat]

/-- Settles O8: eight bit positions commute with taking the low 16 bits. -/
theorem crcMaskPlacement : Obligations.CrcMaskPlacement := by
  intro c b
  have hstart : c ^^^ (b.setWidth 16 <<< 8) = BitVec.ofNat 16 (c.toNat ^^^ (b.toNat <<< 8)) := by
    rw [BitVec.ofNat_xor, ofNat_shiftLeft, BitVec.ofNat_toNat, BitVec.ofNat_toNat, BitVec.setWidth_eq]
  rw [crc16Update, hstart, crcShifts_ofNat, BitVec.toNat_ofNat, crc16UpdateWide]

/-! ### Linearity (R96, items 1 and 3) -/

/-- Feeding two sequences of equal length is linear in the registers and the sequences together. -/
theorem foldl_crc16Update_xor {a b : List Byte} (h : a.length = b.length) (c d : Half) :
    (List.zipWith (· ^^^ ·) a b).foldl crc16Update (c ^^^ d) = a.foldl crc16Update c ^^^ b.foldl crc16Update d := by
  induction a generalizing b c d with
  | nil =>
    cases b with
    | nil => rfl
    | cons y b => cases h
  | cons x a ih =>
    cases b with
    | nil => cases h
    | cons y b =>
      simp only [List.zipWith_cons_cons, List.foldl_cons, crc16Update_xor]
      exact ih (Nat.succ.inj h) _ _

theorem crc16Update_zero : crc16Update 0 0 = 0 := crcShifts_zero 8

theorem foldl_crc16Update_zeros (k : Nat) : (List.replicate k (0 : Byte)).foldl crc16Update 0 = 0 := by
  induction k with
  | zero => rfl
  | succ k ih => rw [List.replicate_succ, List.foldl_cons, crc16Update_zero, ih]

/-- Settles O9: the seed is 0, which is its own XOR with itself and the register that zero bytes leave unchanged. -/
theorem crcIsLinear : Obligations.CrcIsLinear := by
  refine ⟨fun a b h => foldl_crc16Update_xor h 0 0, fun k m => ?_⟩
  calc crc16 (List.replicate k 0 ++ m)
      = m.foldl crc16Update ((List.replicate k (0 : Byte)).foldl crc16Update 0) := List.foldl_append
    _ = crc16 m := by rw [foldl_crc16Update_zeros]; rfl

/-! ### Single-bit detection (R96, item 2) -/

theorem crcShifts_injective (n : Nat) : Function.Injective (crcShifts n) := by
  intro c d h
  have hxor : crcShifts n (c ^^^ d) = 0 := by exact (crcShifts_xor n c d).trans (BitVec.xor_eq_zero_iff.2 h)
  exact BitVec.xor_eq_zero_iff.1 (crcShifts_eq_zero hxor)

/-- After one byte, different registers still differ. -/
theorem crc16Update_left_injective (b : Byte) : Function.Injective (crc16Update · b) :=
  fun _ _ h => (BitVec.xor_left_inj _).1 (crcShifts_injective 8 h)

/-- The byte enters the high byte of the register whole. -/
theorem setWidth_shiftLeft_injective : Function.Injective fun b : Byte => (b.setWidth 16 <<< 8 : Half) := by
  intro a b h
  have hn := congrArg BitVec.toNat h
  simp only [BitVec.toNat_shiftLeft, BitVec.toNat_setWidth, Nat.shiftLeft_eq] at hn
  apply BitVec.eq_of_toNat_eq
  omega

/-- From one register, different bytes lead to different registers. -/
theorem crc16Update_right_injective (c : Half) : Function.Injective (crc16Update c) :=
  fun _ _ h => setWidth_shiftLeft_injective ((BitVec.xor_right_inj _).1 (crcShifts_injective 8 h))

theorem foldl_crc16Update_injective (m : List Byte) : Function.Injective (m.foldl crc16Update) := by
  induction m with
  | nil => exact Function.injective_id
  | cons b m ih => exact ih.comp (crc16Update_left_injective b)

/-- Replacing one byte by another changes the register after the sequence. -/
theorem foldl_crc16Update_set_ne {m : List Byte} {k : Nat} (h : k < m.length) {b : Byte} (hb : b ≠ m[k]) (c : Half) :
    (m.set k b).foldl crc16Update c ≠ m.foldl crc16Update c := by
  induction m generalizing k c with
  | nil => cases h
  | cons x m ih =>
    cases k with
    | zero => exact (foldl_crc16Update_injective m).ne ((crc16Update_right_injective c).ne hb)
    | succ k => exact ih (Nat.lt_of_succ_lt_succ h) hb (crc16Update c x)

theorem flipBit_ne (b : Byte) {j : Nat} (hj : j < 8) : b ^^^ BitVec.twoPow 8 j ≠ b := by
  intro h
  have hbit := congrArg (fun x : Byte => x.getLsbD j) h
  simp [hj] at hbit

/-- Settles O10: the flipped byte leads to another register, and no later byte makes the two registers equal again. -/
theorem crcDetectsSingleBitFlips : Obligations.CrcDetectsSingleBitFlips :=
  fun m k _ h hj => foldl_crc16Update_set_ne h (flipBit_ne m[k] hj) _

end Sys2Proof.Machine
end

section
/-! SUPPORT. What the statements on single commands share: rejection while busy (R138), illegal forms (R78), and the words of
formats B and H written with shifts (R82). -/

namespace Sys2Proof.Machine

theorem rejectedWhileBusy (i : Instr) : RejectedWhileBusy i := fun _ hs => exec_busy i hs

/-- A word with the opcode of a row that does not match the row is illegal. -/
theorem reservedBitsIllegal (m : Mnemonic) : ReservedBitsIllegal (maskMatch m).2 (maskMatch m).1 := by
  intro w s hopc hmask
  have hlow : w.toNat % 256 = (maskMatch m).2.toNat := by
    rw [← hopc, BitVec.toNat_and]
    exact (Nat.and_two_pow_sub_one_eq_mod w.toNat 8).symm
  obtain ⟨e, he⟩ := (decode_error_iff_of_opcode hlow).2 (by simpa [rowMatches] using hmask)
  exact writeCmd_illegal he s

theorem setWidth_or_shiftLeft_toNat {n : Nat} (hn : n ≤ 16) (opc : Byte) (x : BitVec n) :
    (opc.setWidth 32 ||| x.setWidth 32 <<< 16).toNat = opc.toNat + 65536 * x.toNat := by
  have hopc := opc.isLt
  have hx : x.toNat < 65536 := x.isLt.trans_le (Nat.pow_le_pow_right (by decide) hn)
  calc (opc.setWidth 32 ||| x.setWidth 32 <<< 16).toNat
      = opc.toNat % 2 ^ 32 ||| (x.toNat % 2 ^ 32) <<< 16 % 2 ^ 32 := by
        rw [BitVec.toNat_or, BitVec.toNat_shiftLeft, BitVec.toNat_setWidth, BitVec.toNat_setWidth]
    _ = x.toNat <<< 16 ||| opc.toNat := by
        rw [Nat.lor_comm, Nat.mod_eq_of_lt (by omega : opc.toNat < 2 ^ 32), Nat.mod_eq_of_lt (by omega : x.toNat < 2 ^ 32),
          Nat.mod_eq_of_lt (by omega)]
    _ = x.toNat <<< 16 + opc.toNat := (Nat.shiftLeft_add_eq_or_of_lt (by omega) _).symm
    _ = opc.toNat + 65536 * x.toNat := by omega

theorem encodeB_eq_or (opc b : Byte) : encodeB opc b = opc.setWidth 32 ||| b.setWidth 32 <<< 16 :=
  BitVec.eq_of_toNat_eq <| by rw [encodeB_toNat, setWidth_or_shiftLeft_toNat (by decide)]

theorem encodeH_eq_or (opc : Byte) (h : Half) : encodeH opc h = opc.setWidth 32 ||| h.setWidth 32 <<< 16 :=
  BitVec.eq_of_toNat_eq <| by rw [encodeH_toNat, setWidth_or_shiftLeft_toNat (by decide)]

/-- A word equal to the word of an instruction decodes to it. -/
theorem decode_of_encode_eq {i : Instr} {w : Word} (h : encode i = w) : decode w = .ok i :=
  h ▸ decodeOfEncode i

end Sys2Proof.Machine
end

section
/-! SUPPORT. O11 to O14: the commands of the CRC unit (spec/40_crc.md section 2). -/

namespace Sys2Proof.Machine

/-- Settles O12: the word is `encode`'s, and both the effect and the two refusals hold of every command alike. -/
theorem crcInitCommand : Obligations.CrcInitCommand :=
  ⟨decodeOfEncode .crcInit, fun _ hs => exec_awake .crcInit hs, rejectedWhileBusy _, reservedBitsIllegal .crcInit⟩

/-- Settles O13, with the word of format B. -/
theorem crcByteCommand : Obligations.CrcByteCommand := fun b =>
  ⟨decode_of_encode_eq (i := .crcByte b) (encodeB_eq_or 0x02 b), fun _ hs => exec_awake (.crcByte b) hs,
    rejectedWhileBusy _, reservedBitsIllegal .crcByte⟩

/-- Settles O14, with the word of format H. -/
theorem crcVerifyCommand : Obligations.CrcVerifyCommand := fun h =>
  ⟨decode_of_encode_eq (i := .crcVerify h) (encodeH_eq_or 0x03 h), fun _ hs => exec_awake (.crcVerify h) hs,
    rejectedWhileBusy _, reservedBitsIllegal .crcVerify⟩

/-- `CRC_BYTE` for every byte feeds the sequence into `crc` (R91, R93). -/
theorem execAll_crcBytes (m : List Byte) (is : List Instr) {s : State} (hs : s.fsm = .awake) :
    execAll (m.map .crcByte ++ is) s = execAll is { s with crc := m.foldl crc16Update s.crc } := by
  induction m generalizing s with
  | nil => rfl
  | cons b m ih =>
    rw [List.map_cons, List.cons_append, execAll_cons_awake _ _ hs]
    exact ih (s := feedCrc b s) hs

/-- Settles O11: `crc` holds CRC16 of the payload when the comparison reads it. -/
theorem crcVerifyDecidesChecksum : Obligations.CrcVerifyDecidesChecksum := by
  intro payload checksum s hs
  have hcmp : (crc16 payload == checksum) = decide (checksum = crc16 payload) := by
    rw [beq_eq_decide, decide_eq_decide, eq_comm]
  calc execAll (.crcInit :: (payload.map .crcByte ++ [.crcVerify checksum])) s
      = execAll (payload.map .crcByte ++ [.crcVerify checksum]) { s with crc := 0 } := execAll_cons_awake _ _ hs
    _ = execAll [.crcVerify checksum] { s with crc := crc16 payload } := execAll_crcBytes payload _ (s := { s with crc := 0 }) hs
    _ = .next { s with crc := crc16 payload, matched := crc16 payload == checksum } := execAll_cons_awake _ _ hs
    _ = _ := by rw [hcmp]

end Sys2Proof.Machine
end

section
/-! SUPPORT. O15 to O22, O24 and O25: the commands of the frame unit (spec/41_frame.md). -/

namespace Sys2Proof.Machine

/-! ### What the effects write, as the claims say it -/

/-- R102: the range flag is set by an out-of-range reading and kept otherwise. -/
theorem encodeReading_eq (s : State) :
    encodeReading s = { s with
      fencInt := intByte s.opnd
      fencFrac := fracByte s.opnd
      fencRng := if readingOutOfRange s.opnd = true then true else s.fencRng } := by
  cases hr : readingOutOfRange s.opnd <;> simp [encodeReading, hr]

theorem lowByte_eq_setWidth (h : Half) : lowByte h = h.setWidth 8 :=
  BitVec.eq_of_toNat_eq <| by simp [lowByte]

theorem highByte_eq_setWidth (h : Half) : highByte h = (h >>> 8).setWidth 8 :=
  BitVec.eq_of_toNat_eq <| by simp [highByte, BitVec.extractLsb'_toNat]

theorem asciiDigit_toNat (d : Byte) : asciiDigit d.toNat = 0x30#8 + d :=
  BitVec.eq_of_toNat_eq <| by simp [asciiDigit]

/-- R107 with byte arithmetic. -/
theorem dec2_eq (b : Byte) :
    dec2 b = if b.toNat < 100 then [0x30#8 + b / 10, 0x30#8 + b % 10]
      else [0x30#8 + b / 100, 0x30#8 + b / 10 % 10, 0x30#8 + b % 10] := by
  simp only [← asciiDigit_toNat]
  rfl

/-- R108 with byte arithmetic. -/
theorem dec_eq (b : Byte) :
    dec b = if b.toNat < 10 then [0x30#8 + b]
      else if b.toNat < 100 then [0x30#8 + b / 10, 0x30#8 + b % 10]
      else [0x30#8 + b / 100, 0x30#8 + b / 10 % 10, 0x30#8 + b % 10] := by
  simp only [← asciiDigit_toNat]
  rfl

/-- R105 in binary mode. -/
theorem awakeEffect_frmCrc_binary {s : State} (h : s.cfgTxtMode = false) :
    awakeEffect .frmCrc s = appendAll [s.crc.setWidth 8, (s.crc >>> 8).setWidth 8] s := by
  simp only [awakeEffect, h, Bool.false_eq_true, if_false, lowByte_eq_setWidth, highByte_eq_setWidth]

/-! ### The commands -/

/-- Settles O15: as for `CRC_INIT`, everything but the effect holds of every command alike. -/
theorem frmStartCommand : Obligations.FrmStartCommand :=
  ⟨decodeOfEncode .frmStart, fun _ hs => exec_awake .frmStart hs, rejectedWhileBusy _, reservedBitsIllegal .frmStart⟩

/-- Settles O16: the CRC takes the byte first, then `appendAll_appends` says what the append does. -/
theorem frmByteCommand : Obligations.FrmByteCommand := fun b =>
  ⟨decode_of_encode_eq (i := .frmByte b) (encodeB_eq_or 0x11 b),
    fun s hs => ⟨_, exec_awake (.frmByte b) hs, appendAll_appends [b] (feedCrc b s)⟩,
    rejectedWhileBusy _, reservedBitsIllegal .frmByte⟩

/-- Settles O17: `FENC` is `encodeReading`, whose flag `encodeReading_eq` writes as the claim does. -/
theorem fencCommand : Obligations.FencCommand :=
  ⟨decodeOfEncode .fenc, fun s hs => (exec_awake .fenc hs).trans (congrArg _ (encodeReading_eq s)),
    rejectedWhileBusy _, reservedBitsIllegal .fenc⟩

/-- Two payload bytes: an append does not meet the CRC, so both bytes may enter it before the buffer. -/
theorem execAll_frmByte_twice (a b : Byte) {s : State} (hs : s.fsm = .awake) :
    execAll [.frmByte a, .frmByte b] s = .next (appendAll [a, b] (feedCrc b (feedCrc a s))) :=
  calc execAll [.frmByte a, .frmByte b] s
      = execAll [.frmByte b] (append a (feedCrc a s)) := execAll_cons_awake _ _ hs
    _ = .next (append b (feedCrc b (append a (feedCrc a s)))) := execAll_cons_awake _ _ ((append_fsm _ _).trans hs)
    _ = .next (append b (append a (feedCrc b (feedCrc a s)))) := by rw [feedCrc_append]

/-- Settles O18: `FENC` leaves the state in which `FRM_FIXED` appends its two bytes. -/
theorem frmFixedCommand : Obligations.FrmFixedCommand := by
  refine ⟨decodeOfEncode .frmFixed, fun s hs => ⟨_, exec_awake .frmFixed hs, ?_⟩, fun s hs => ?_,
    rejectedWhileBusy _, reservedBitsIllegal .frmFixed⟩
  · rw [awakeEffect, encodeReading_eq]
    exact appendAll_appends _ _
  · rw [execAll_cons_awake .fenc _ hs, exec_awake .frmFixed hs]
    exact execAll_frmByte_twice _ _ (s := encodeReading s) hs

/-- Settles O19: in binary mode two bytes are appended, in text mode the effect is the identity. -/
theorem frmCrcCommand : Obligations.FrmCrcCommand := by
  refine ⟨decodeOfEncode .frmCrc, fun s hs hbin => ⟨_, exec_awake .frmCrc hs, ?_⟩, fun s hs htxt => ?_,
    rejectedWhileBusy _, reservedBitsIllegal .frmCrc⟩
  · rw [awakeEffect_frmCrc_binary hbin]
    exact appendAll_appends _ s
  · rw [exec_awake .frmCrc hs, awakeEffect, if_pos htxt]

/-- Settles O20: `FRM_RAW` is one append. -/
theorem frmRawCommand : Obligations.FrmRawCommand := fun b =>
  ⟨decode_of_encode_eq (i := .frmRaw b) (encodeB_eq_or 0x15 b),
    fun s hs => ⟨_, exec_awake (.frmRaw b) hs, appendAll_appends [b] s⟩,
    rejectedWhileBusy _, reservedBitsIllegal .frmRaw⟩

/-- Settles O21: `FRM_DEC2` appends `dec2 b`, and `dec2_eq` writes its digits with byte arithmetic. -/
theorem frmDec2Command : Obligations.FrmDec2Command := by
  intro b
  rw [← dec2_eq]
  exact ⟨decode_of_encode_eq (i := .frmDec2 b) (encodeB_eq_or 0x16 b),
    fun s hs => ⟨_, exec_awake (.frmDec2 b) hs, appendAll_appends (dec2 b) s⟩,
    rejectedWhileBusy _, reservedBitsIllegal .frmDec2⟩

/-- Settles O22: `FRM_DEC` appends `dec b`, and `dec_eq` writes its digits with byte arithmetic. -/
theorem frmDecCommand : Obligations.FrmDecCommand := by
  intro b
  rw [← dec_eq]
  exact ⟨decode_of_encode_eq (i := .frmDec b) (encodeB_eq_or 0x17 b),
    fun s hs => ⟨_, exec_awake (.frmDec b) hs, appendAll_appends (dec b) s⟩,
    rejectedWhileBusy _, reservedBitsIllegal .frmDec⟩

/-! ### Ghost channel and empty frame (R111, R112) -/

theorem intByte_zero : intByte 0 = 0 := by decide

theorem fracByte_zero : fracByte 0 = 0 := by decide

theorem readingOutOfRange_zero : readingOutOfRange 0 = false := by decide

/-- R101 at 0: both bytes are 0 and the range flag is kept. -/
theorem encodeReading_zero {s : State} (h : s.opnd = 0) : encodeReading s = { s with fencInt := 0, fencFrac := 0 } := by
  rw [encodeReading, h, intByte_zero, fracByte_zero, readingOutOfRange_zero, Bool.or_false]

/-- An append does not meet `FENC_RES`. -/
theorem append_setFencRes (b i f : Byte) (s : State) :
    append b { s with fencInt := i, fencFrac := f } = { append b s with fencInt := i, fencFrac := f } := by
  by_cases h : s.frmLen.toNat < 256
  · rw [append_fits h, append_fits (s := { s with fencInt := i, fencFrac := f }) h]
    rfl
  · rw [append_full h, append_full (s := { s with fencInt := i, fencFrac := f }) h]

theorem appendAll_setFencRes (bs : List Byte) (i f : Byte) (s : State) :
    appendAll bs { s with fencInt := i, fencFrac := f } = { appendAll bs s with fencInt := i, fencFrac := f } := by
  induction bs generalizing s with
  | nil => rfl
  | cons b bs ih => rw [appendAll_cons, append_setFencRes, ih, appendAll_cons]

/-- Settles O24: with `OPND` = 0, `FRM_FIXED` is `FRM_BYTE 0` twice in a state whose `FENC_RES` is 0. -/
theorem ghostChannel : Obligations.GhostChannel := by
  intro s hs ho
  refine ⟨_, _, exec_awake .frmFixed hs, execAll_frmByte_twice 0 0 hs, ?_, appendAll_appends [0, 0] (feedCrc 0 (feedCrc 0 s))⟩
  have hint : intByte s.opnd = 0 := by rw [ho, intByte_zero]
  have hfrac : fracByte s.opnd = 0 := by rw [ho, fracByte_zero]
  rw [awakeEffect, encodeReading_zero ho, hint, hfrac]
  exact appendAll_setFencRes [0, 0] 0 0 (feedCrc 0 (feedCrc 0 s))

theorem execAll_frmCrc_binary {s : State} (hs : s.fsm = .awake) (h : s.cfgTxtMode = false) :
    execAll [.frmCrc] s = .next (appendAll [s.crc.setWidth 8, (s.crc >>> 8).setWidth 8] s) := by
  rw [execAll_cons_awake .frmCrc [] hs, awakeEffect_frmCrc_binary h, execAll]

/-- Settles O25: `FRM_CRC` appends the two bytes of the `crc` that `FRM_START` leaves, which are 0. -/
theorem emptyFrame : Obligations.EmptyFrame := by
  intro s hs
  have hstart (is : List Instr) : execAll (.frmStart :: is) s = execAll is { s with frmLen := 0, crc := 0 } :=
    execAll_cons_awake .frmStart is hs
  have hzero : [(0 : Half).setWidth 8, ((0 : Half) >>> 8).setWidth 8] = ([0x00, 0x00] : List Byte) := by decide
  refine ⟨hstart [], fun hbin => ?_⟩
  rw [← hzero]
  exact ⟨_, (hstart [.frmCrc]).trans (execAll_frmCrc_binary (s := { s with frmLen := 0, crc := 0 }) hs hbin),
    appendAll_appends _ _⟩

end Sys2Proof.Machine
end

section
/-! SUPPORT. O23: the encoder over the rationals (R14, R100, R101). Both roundings are odd functions, so the magnitude of the
operand decides and its sign is put back last. -/

namespace Sys2Proof.Machine

/-! ### The roundings of R14 -/

theorem truncQ_neg (x : ℚ) : truncQ (-x) = -truncQ x := by
  rcases lt_trichotomy x 0 with h | rfl | h
  · rw [truncQ, truncQ, if_pos h, if_neg (by linarith), Int.floor_neg]
  · simp [truncQ]
  · rw [truncQ, truncQ, if_pos (by linarith), if_neg (by linarith), Int.ceil_neg]

theorem roundHalfAwayQ_neg (x : ℚ) : roundHalfAwayQ (-x) = -roundHalfAwayQ x := by
  rcases lt_trichotomy x 0 with h | rfl | h
  · rw [roundHalfAwayQ, roundHalfAwayQ, if_pos h, if_neg (by linarith), neg_neg]
  · norm_num [roundHalfAwayQ]
  · rw [roundHalfAwayQ, roundHalfAwayQ, if_pos (by linarith), if_neg (by linarith), neg_neg]

theorem truncQ_natCast_div (n d : ℕ) : truncQ ((n : ℚ) / d) = (n / d : ℕ) := by
  rw [truncQ, if_neg (not_lt.2 (by positivity)), Rat.floor_natCast_div_natCast, Int.natCast_ediv]

/-- A quotient rounded as R101 does it: half of the divisor is added before the division. -/
theorem roundHalfAwayQ_natCast_div (n : ℕ) {h : ℕ} (hh : 0 < h) :
    roundHalfAwayQ ((n : ℚ) / (2 * h : ℕ)) = ((n + h) / (2 * h) : ℕ) := by
  have hhalf : (n : ℚ) / (2 * h : ℕ) + 1 / 2 = (n + h : ℕ) / (2 * h : ℕ) := by
    have : (h : ℚ) ≠ 0 := by positivity
    push_cast
    field_simp
  rw [roundHalfAwayQ, if_neg (not_lt.2 (by positivity)), hhalf, Rat.floor_natCast_div_natCast, Int.natCast_ediv]

/-! ### The magnitude's two parts (R101) -/

theorem readingIp_eq (o : Word) : readingIp o = readingMagnitude o / 65536 := Nat.shiftRight_eq_div_pow _ 16

theorem readingFp_eq (o : Word) : readingFp o = readingMagnitude o % 65536 :=
  Nat.and_two_pow_sub_one_eq_mod (readingMagnitude o) 16

theorem truncQ_magnitude (o : Word) : truncQ ((readingMagnitude o : ℚ) / 65536) = readingIp o := by
  rw [readingIp_eq]
  exact truncQ_natCast_div (readingMagnitude o) 65536

theorem magnitude_sub_ip (o : Word) : (readingMagnitude o : ℚ) / 65536 - readingIp o = (readingFp o : ℚ) / 65536 := by
  have h : (65536 * readingIp o + readingFp o : ℚ) = readingMagnitude o := by
    rw [readingIp_eq, readingFp_eq]
    exact_mod_cast Nat.div_add_mod (readingMagnitude o) 65536
  linarith

theorem roundHalfAwayQ_fp (o : Word) : roundHalfAwayQ ((readingFp o : ℚ) / 65536 * 100) = readingFr o := by
  rw [readingFr, Config.fencFracBits, Nat.shiftRight_eq_div_pow, div_mul_eq_mul_div]
  exact_mod_cast roundHalfAwayQ_natCast_div (readingFp o * 100) (h := 0x8000) (by decide)

/-! ### The signed parts -/

theorem reading_of_neg {o : Word} (h : o.toInt < 0) : reading o = -((readingMagnitude o : ℚ) / 65536) := by
  have hm : (readingMagnitude o : ℤ) = -o.toInt := Int.ofNat_natAbs_of_nonpos h.le
  rw [reading, ← neg_div]
  exact_mod_cast congrArg (fun z : ℤ => (z : ℚ) / 65536) (neg_eq_iff_eq_neg.2 hm).symm

theorem reading_of_nonneg {o : Word} (h : ¬ o.toInt < 0) : reading o = (readingMagnitude o : ℚ) / 65536 := by
  have hm : (readingMagnitude o : ℤ) = o.toInt := Int.natAbs_of_nonneg (not_lt.1 h)
  rw [reading, ← hm, Int.cast_natCast]

/-- `is = trunc(v)` (R101). -/
theorem signedIntPart_eq (o : Word) : signedIntPart o = truncQ (reading o) := by
  by_cases h : o.toInt < 0
  · rw [signedIntPart, withSignOf, if_pos h, reading_of_neg h, truncQ_neg, truncQ_magnitude]
  · rw [signedIntPart, withSignOf, if_neg h, reading_of_nonneg h, truncQ_magnitude]

/-- `fs = roundHalfAway((v - trunc(v)) * 100)` (R101). -/
theorem signedFracPart_eq (o : Word) : signedFracPart o = roundHalfAwayQ ((reading o - signedIntPart o) * 100) := by
  by_cases h : o.toInt < 0
  · have hfrac : (reading o - signedIntPart o) * 100 = -((readingFp o : ℚ) / 65536 * 100) := by
      rw [reading_of_neg h, signedIntPart, withSignOf, if_pos h, ← magnitude_sub_ip]
      push_cast
      ring
    rw [hfrac, roundHalfAwayQ_neg, roundHalfAwayQ_fp, signedFracPart, withSignOf, if_pos h]
  · rw [reading_of_nonneg h, signedIntPart, withSignOf, if_neg h, Int.cast_natCast, magnitude_sub_ip, roundHalfAwayQ_fp,
      signedFracPart, withSignOf, if_neg h]

theorem readingOutOfRange_iff (o : Word) :
    readingOutOfRange o = true ↔ ¬ (0 ≤ signedIntPart o ∧ signedIntPart o ≤ 255
      ∧ 0 ≤ signedFracPart o ∧ signedFracPart o ≤ 255) := by
  rw [readingOutOfRange, ← Bool.decide_and, Bool.not_eq_true', decide_eq_false_iff_not, and_assoc]

/-- Settles O23: the signed parts are the exact roundings, and the bytes and the flag are read off them. -/
theorem encoderIsExact : Obligations.EncoderIsExact := by
  intro o
  dsimp only
  rw [← signedIntPart_eq, ← signedFracPart_eq]
  exact ⟨rfl, rfl, readingOutOfRange_iff o⟩

end Sys2Proof.Machine
end

section
/-! SUPPORT. A frame under construction: what holds after `FRM_START` and some appends that fit the buffer (R98, R99), and what
the host's lines add to it (R115, R116). -/

namespace Sys2Proof.Machine

/-! ### The frame so far -/

/-- `t` holds the frame `bs` with the running checksum `c`, built from `s` without an overflow: the block is still in `AWAKE`,
and the inputs of the frame commands that are not the frame's own are those of `s`. -/
structure Builds (s : State) (bs : List Byte) (c : Half) (t : State) : Prop where
  awake : t.fsm = .awake
  base : t.base = s.base
  txtMode : t.cfgTxtMode = s.cfgTxtMode
  frmOvf : t.frmOvf = s.frmOvf
  crc : t.crc = c
  frmLen : t.frmLen.toNat = bs.length
  bytes : ∀ i < bs.length, t.frameByte i = bs[i]?

/-- `FRM_START` (R99): the empty frame. -/
theorem builds_frmStart {s : State} (h : s.fsm = .awake) : Builds s [] 0 (awakeEffect .frmStart s) :=
  ⟨h, rfl, rfl, rfl, rfl, rfl, fun i hi => absurd hi i.not_lt_zero⟩

theorem Builds.setCrc {s t : State} {bs : List Byte} {c : Half} (h : Builds s bs c t) (d : Half) :
    Builds s bs d { t with crc := d } :=
  ⟨h.awake, h.base, h.txtMode, h.frmOvf, rfl, h.frmLen, h.bytes⟩

/-- `OPND` and `FENC_RES` are not the frame's. -/
theorem Builds.encodeReading {s t : State} {bs : List Byte} {c : Half} (h : Builds s bs c t) (o : Word) :
    Builds s bs c (encodeReading { t with opnd := o }) :=
  ⟨h.awake, h.base, h.txtMode, h.frmOvf, h.crc, h.frmLen, h.bytes⟩

/-- Bytes that fit are appended to the frame (R98). -/
theorem Builds.appendAll {s t : State} {bs : List Byte} {c : Half} (h : Builds s bs c t) {cs : List Byte}
    (hfit : bs.length + cs.length ≤ 256) : Builds s (bs ++ cs) c (appendAll cs t) := by
  obtain ⟨hlen, hovf, hbyte, -⟩ := appendAll_appends cs t
  have hmin : min cs.length (256 - t.frmLen.toNat) = cs.length := by rw [h.frmLen]; omega
  rw [hmin, h.frmLen] at hlen hbyte
  rw [hmin] at hovf
  refine ⟨(appendAll_fsm cs t).trans h.awake, (appendAll_base cs t).trans h.base, (appendAll_cfgTxtMode cs t).trans h.txtMode,
    ?_, (appendAll_crc cs t).trans h.crc, hlen.trans List.length_append.symm, fun i hi => ?_⟩
  · simpa using hovf.trans (congrArg (· || _) h.frmOvf)
  · rw [List.length_append] at hi
    rw [hbyte]
    by_cases hold : i < bs.length
    · rw [if_neg (by omega), h.bytes i hold, List.getElem?_append_left hold]
    · rw [if_pos (by omega), List.getElem?_append_right (by omega)]

/-! ### Accesses of the host -/

theorem runAccesses_append {as : List Access} {s t : State} (h : runAccesses as s = .next t) (bs : List Access) :
    runAccesses (as ++ bs) s = runAccesses bs t := by
  induction as generalizing s with
  | nil => cases h; rfl
  | cons a as ih =>
    simp only [runAccesses, List.cons_append] at h ⊢
    cases ha : busAccess a s with
    | next u => rw [ha] at h; exact ih h
    | fault r => rw [ha] at h; cases h
    | refused r => rw [ha] at h; cases h

/-- A command line's access executes the command (R23, R81). -/
theorem runAccesses_cmd {s : State} (i : Instr) (h : s.fsm = .awake) :
    runAccesses [cmdAccess s.base i] s = .next (awakeEffect i s) := by
  have hcmd : busAccess (cmdAccess s.base i) s = .next (awakeEffect i s) :=
    (busAccess_write_cmd (encode i) s).trans ((writeCmd_legal (decodeOfEncode i) s).trans (exec_awake i h))
  simp only [runAccesses, hcmd]

/-- `wr OPND` (R24). -/
theorem runAccesses_opnd (s : State) (w : Word) :
    runAccesses [wrAccess s.base .opnd w] s = .next { s with opnd := w } := by
  have hwr : busAccess (wrAccess s.base .opnd w) s = .next { s with opnd := w } := busAccess_write_reg .opnd s w
  simp only [runAccesses, hwr]

theorem expand_line (base : Nat) (i : Instr) : (line i).expand base = [cmdAccess base i] := by
  rw [line, HostLine.expand, Instr.line, Instr.mnemonic_instr_operand]

theorem assembleProgram_eq (base : Nat) {p : List HostLine} (h : p.all HostLine.wellFormed = true) :
    assembleProgram base p = some (p.flatMap (HostLine.expand base)) := if_pos h

/-! ### Lines that append to the frame -/

/-- Performing `lines` appends `bs` to a frame in which they fit, and `upd` says what each byte does to the running checksum:
`crc16Update` for payload lines, nothing for raw ones. -/
structure Emits (upd : Half → Byte → Half) (lines : List HostLine) (bs : List Byte) : Prop where
  wellFormed : lines.all HostLine.wellFormed = true
  runs : ∀ {s t : State} {pre : List Byte} {c : Half}, Builds s pre c t → pre.length + bs.length ≤ 256 →
    ∃ u, runAccesses (lines.flatMap (HostLine.expand s.base)) t = .next u ∧ Builds s (pre ++ bs) (bs.foldl upd c) u

section
variable {upd : Half → Byte → Half}

theorem Emits.nil : Emits upd [] [] where
  wellFormed := rfl
  runs {_ t pre _} h _ := ⟨t, rfl, by rwa [List.append_nil]⟩

theorem Emits.append {ls ms : List HostLine} {bs cs : List Byte} (hl : Emits upd ls bs) (hm : Emits upd ms cs) :
    Emits upd (ls ++ ms) (bs ++ cs) where
  wellFormed := by rw [List.all_append, hl.wellFormed, hm.wellFormed]; rfl
  runs {s t pre c} h hfit := by
    rw [List.length_append] at hfit
    obtain ⟨u, hu, hbu⟩ := hl.runs h (by omega)
    obtain ⟨v, hv, hbv⟩ := hm.runs hbu (by rw [List.length_append]; omega)
    refine ⟨v, ?_, ?_⟩
    · rw [List.flatMap_append, runAccesses_append hu, hv]
    · rwa [List.foldl_append, ← List.append_assoc]

theorem Emits.flatMap {α : Type} {ls : α → List HostLine} {bs : α → List Byte} (h : ∀ x, Emits upd (ls x) (bs x))
    (xs : List α) : Emits upd (xs.flatMap ls) (xs.flatMap bs) := by
  induction xs with
  | nil => exact .nil
  | cons x xs ih => exact (h x).append ih

/-- One line for each element of a list. -/
theorem Emits.map {α : Type} {l : α → HostLine} {bs : α → List Byte} (h : ∀ x, Emits upd [l x] (bs x)) (xs : List α) :
    Emits upd (xs.map l) (xs.flatMap bs) := by
  rw [List.map_eq_flatMap]
  exact .flatMap h xs

/-- One line for each byte of a list. -/
theorem Emits.map_byte {l : Byte → HostLine} (h : ∀ b, Emits upd [l b] [b]) (bs : List Byte) : Emits upd (bs.map l) bs := by
  simpa using Emits.map h bs

/-- A command whose effect is the append. -/
theorem Emits.line {i : Instr} {bs : List Byte}
    (h : ∀ t : State, awakeEffect i t = appendAll bs { t with crc := bs.foldl upd t.crc }) : Emits upd [line i] bs where
  wellFormed := by simp [Machine.line, HostLine.wellFormed]
  runs {s t pre c} hb hfit := by
    refine ⟨awakeEffect i t, ?_, ?_⟩
    · rw [List.flatMap_singleton, expand_line, ← hb.base, runAccesses_cmd i hb.awake]
    · rw [h, hb.crc]
      exact (hb.setCrc _).appendAll hfit

/-- A frame that fits: `FRM_START`, then lines that append it. -/
theorem Emits.frame {ls : List HostLine} {bs : List Byte} (h : Emits upd ls bs) {s : State} (hs : s.fsm = .awake)
    (hfit : bs.length ≤ 256) :
    (Machine.line .frmStart :: ls).all HostLine.wellFormed = true
      ∧ ∃ t, runAccesses ((Machine.line .frmStart :: ls).flatMap (HostLine.expand s.base)) s = .next t
        ∧ Builds s bs (bs.foldl upd 0) t := by
  obtain ⟨t, ht, hbt⟩ := h.runs (builds_frmStart hs) (by simpa using hfit)
  refine ⟨h.wellFormed, t, ?_, hbt⟩
  rw [List.flatMap_cons, expand_line, runAccesses_append (runAccesses_cmd .frmStart hs), ht]

end

/-! ### The lines of the two layouts -/

theorem emits_frmByte (b : Byte) : Emits crc16Update [line (.frmByte b)] [b] := .line fun _ => rfl

/-- One channel (R115): the pair of the reading that stands in `OPND`. -/
theorem emits_channelLines (o : Word) : Emits crc16Update (channelLines o) [intByte o, fracByte o] where
  wellFormed := by
    have := o.isLt
    simpa [channelLines, line, HostLine.wellFormed]
  runs {s t pre c} h hfit := by
    have hexpand : (channelLines o).flatMap (HostLine.expand s.base) =
        [wrAccess t.base .opnd o] ++ [cmdAccess t.base .frmFixed] := by
      rw [h.base, channelLines, List.flatMap_cons, List.flatMap_singleton, expand_line, HostLine.expand, BitVec.ofNat_toNat,
        BitVec.setWidth_eq]
    refine ⟨awakeEffect .frmFixed { t with opnd := o }, ?_, ?_⟩
    · rw [hexpand, runAccesses_append (runAccesses_opnd t o)]
      exact runAccesses_cmd .frmFixed (s := { t with opnd := o }) h.awake
    · rw [← h.crc]
      exact ((h.encodeReading o).setCrc _).appendAll hfit

/-- The checksum update of the lines that leave `crc` alone. -/
def keepCrc (c : Half) (_ : Byte) : Half := c

theorem foldl_keepCrc (bs : List Byte) (c : Half) : bs.foldl keepCrc c = c := List.foldl_fixed bs

/-- A command that only appends. -/
theorem emits_raw {i : Instr} {bs : List Byte} (h : ∀ t, awakeEffect i t = appendAll bs t) : Emits keepCrc [line i] bs :=
  .line fun t => by rw [h, foldl_keepCrc]

theorem emits_rawLines (codes : List Byte) : Emits keepCrc (rawLines codes) codes :=
  .map_byte (fun b => emits_raw (i := .frmRaw b) fun _ => rfl) codes

theorem emits_frmDec (b : Byte) : Emits keepCrc [line (.frmDec b)] (dec b) := emits_raw fun _ => rfl

theorem emits_frmDec2 (b : Byte) : Emits keepCrc [line (.frmDec2 b)] (dec2 b) := emits_raw fun _ => rfl

theorem emits_readingLines (pair : Byte × Byte) : Emits keepCrc (readingLines pair) (dec pair.1 ++ [0x2E] ++ dec pair.2) :=
  ((emits_frmDec pair.1).append (emits_rawLines [0x2E])).append (emits_frmDec pair.2)

end Sys2Proof.Machine
end

section
/-! SUPPORT. O26 and O27: the host sequences of the binary and the textual frame (R115 to R118). -/

namespace Sys2Proof.Machine

/-! ### The binary frame (R115, R118) -/

theorem length_framePayload (nodeId deviceId : List Byte) (readings : List Word) (aux : Byte) :
    (framePayload nodeId deviceId readings aux).length =
      payloadLength nodeId.length deviceId.length readings.length := by
  simp only [framePayload, payloadLength, List.length_append, List.length_flatMap, List.length_cons, List.length_nil,
    List.map_const', List.sum_replicate, smul_eq_mul]
  omega

/-- The lines between `FRM_START` and `FRM_CRC` append the payload. -/
theorem emits_binaryPayload (nodeId deviceId : List Byte) (readings : List Word) (aux : Byte) :
    Emits crc16Update
      (nodeId.map (fun b => line (.frmByte b)) ++ deviceId.map (fun b => line (.frmByte b)) ++ readings.flatMap channelLines
        ++ [line (.frmByte aux)])
      (framePayload nodeId deviceId readings aux) :=
  (((Emits.map_byte emits_frmByte nodeId).append (.map_byte emits_frmByte deviceId)).append
    (.flatMap emits_channelLines readings)).append (emits_frmByte aux)

/-- `FRM_CRC` closes a binary frame with the running checksum, low byte first (R105). -/
theorem Builds.frmCrc {s t : State} {bs : List Byte} {c : Half} (h : Builds s bs c t) (hbin : s.cfgTxtMode = false)
    (hfit : bs.length + 2 ≤ 256) :
    Builds s (bs ++ [c.setWidth 8, (c >>> 8).setWidth 8]) c (awakeEffect .frmCrc t) := by
  rw [awakeEffect_frmCrc_binary (h.txtMode.trans hbin), h.crc]
  exact h.appendAll hfit

/-- Settles O26: the payload lines build the payload and its CRC16, and `FRM_CRC` appends the two bytes of that CRC. -/
theorem binaryFrame_run : Obligations.BinaryFrame := by
  intro s nodeId deviceId readings aux hs hbin hfit
  rw [← length_framePayload nodeId deviceId readings aux] at hfit ⊢
  obtain ⟨hwf, t, ht, hbt⟩ := (emits_binaryPayload nodeId deviceId readings aux).frame hs (by omega)
  have hbu := hbt.frmCrc hbin hfit
  have hcrc := runAccesses_cmd .frmCrc hbt.awake
  rw [hbt.base] at hcrc
  refine ⟨_, _, assembleProgram_eq s.base (p := binaryFrame nodeId deviceId readings aux) ?_, ?_,
    hbu.frmLen.trans List.length_append, hbu.crc, hbu.frmOvf, ?_⟩
  · rw [binaryFrame, List.all_append, binaryPayload, hwf]
    rfl
  · rw [binaryFrame, List.flatMap_append, binaryPayload, runAccesses_append ht, List.flatMap_singleton, expand_line, hcrc]
  · rw [hbu.frmLen, hbu.crc]
    exact hbu.bytes

/-! ### The textual frame (R116, R117) -/

/-- A byte has one to three digits (R108). -/
theorem length_dec_bounds (b : Byte) : 1 ≤ (dec b).length ∧ (dec b).length ≤ 3 := by
  unfold dec
  dsimp only
  split
  · simp
  · split <;> simp

/-- A byte has two or three zero-padded digits (R107). -/
theorem length_dec2_bounds (b : Byte) : 2 ≤ (dec2 b).length ∧ (dec2 b).length ≤ 3 := by
  unfold dec2
  dsimp only
  split <;> simp

theorem length_flatMap_dec2_bounds (bs : List Byte) :
    2 * bs.length ≤ (bs.flatMap dec2).length ∧ (bs.flatMap dec2).length ≤ 3 * bs.length := by
  induction bs with
  | nil => simp
  | cons b bs ih =>
    have hb := length_dec2_bounds b
    rw [List.flatMap_cons, List.length_append, List.length_cons]
    omega

/-- The length of R117: 55 template characters beside the fields. -/
theorem length_textBytes (nodeId deviceId : List Byte) (pair₀ pair₁ : Byte × Byte) (aux : Byte) :
    (textBytes nodeId deviceId pair₀ pair₁ aux).length =
      nodeId.length + 55 + (deviceId.flatMap dec2).length + (dec pair₀.1).length + (dec pair₀.2).length
        + (dec pair₁.1).length + (dec pair₁.2).length + (dec aux).length := by
  simp only [textBytes, tplNumber, tplData, tplT1, tplH, tplL, List.length_append, List.length_cons, List.length_nil]
  omega

/-- The bounds of R117: every field at its fewest and at its most digits. -/
theorem length_textBytes_bounds (nodeId : List Byte) {deviceId : List Byte} (h : deviceId.length = 6)
    (pair₀ pair₁ : Byte × Byte) (aux : Byte) :
    nodeId.length + 72 ≤ (textBytes nodeId deviceId pair₀ pair₁ aux).length
      ∧ (textBytes nodeId deviceId pair₀ pair₁ aux).length ≤ nodeId.length + 88 := by
  have hdev := length_flatMap_dec2_bounds deviceId
  have hi₀ := length_dec_bounds pair₀.1
  have hf₀ := length_dec_bounds pair₀.2
  have hi₁ := length_dec_bounds pair₁.1
  have hf₁ := length_dec_bounds pair₁.2
  have haux := length_dec_bounds aux
  rw [length_textBytes]
  omega

/-- The lines after `FRM_START` append the text. -/
theorem emits_textLines (nodeId deviceId : List Byte) (pair₀ pair₁ : Byte × Byte) (aux : Byte) :
    Emits keepCrc
      (rawLines nodeId ++ rawLines tplNumber ++ deviceId.map (fun b => line (.frmDec2 b)) ++ rawLines tplData
        ++ readingLines pair₀ ++ rawLines tplT1 ++ readingLines pair₁ ++ rawLines tplH ++ [line (.frmDec aux)]
        ++ rawLines tplL)
      (textBytes nodeId deviceId pair₀ pair₁ aux) :=
  (emits_rawLines nodeId).append (emits_rawLines tplNumber) |>.append (.map emits_frmDec2 deviceId)
    |>.append (emits_rawLines tplData) |>.append (emits_readingLines pair₀) |>.append (emits_rawLines tplT1)
    |>.append (emits_readingLines pair₁) |>.append (emits_rawLines tplH) |>.append (emits_frmDec aux)
    |>.append (emits_rawLines tplL)

/-- Settles O27: the length and its bounds are counted field by field, and the lines build the text without touching `crc`. -/
theorem textFrame_run : Obligations.TextFrame := by
  intro s nodeId deviceId pair₀ pair₁ aux hs hid
  dsimp only
  obtain ⟨hmin, hmax⟩ := length_textBytes_bounds nodeId hid pair₀ pair₁ aux
  refine ⟨length_textBytes nodeId deviceId pair₀ pair₁ aux, hmin, hmax, fun hfit => ?_⟩
  obtain ⟨hwf, t, ht, hbt⟩ := (emits_textLines nodeId deviceId pair₀ pair₁ aux).frame hs hfit
  rw [foldl_keepCrc] at hbt
  exact ⟨_, t, assembleProgram_eq s.base hwf, ht, hbt.frmLen, hbt.crc, by rw [hbt.frmLen]; exact hbt.bytes⟩

end Sys2Proof.Machine
end

section
/-! SUPPORT. O29 and O30: the commands of the sleep unit (spec/42_sleep.md section 2). -/

namespace Sys2Proof.Machine

/-! ### What the effects write, as the claims say it -/

theorem slpInit_first {s : State} (hi : s.init = false) :
    slpInit s = { s with wdtIe := true, adcEn := false, pdEn := true, init := true } := by
  simp [slpInit, hi]

theorem slpInit_again {s : State} (hi : s.init = true) : slpInit s = recorded .reinit s := by
  simp [slpInit, hi, cmdError_eq_recorded]

/-- The forced path (R127). -/
theorem acceptSleep_forced (c : Half) {s : State} (hf : s.cfgFailsafeEn = true) (hv : s.vlow = true) :
    acceptSleep c s = { s with cycles := c, irqDis := true, bodOff := true, pdReq := true, fsm := .forcedSleep } := by
  simp [acceptSleep, enterForcedSleep, hf, hv]

/-- The normal path (R127). -/
theorem acceptSleep_normal (c : Half) {s : State} (h : s.cfgFailsafeEn = false ∨ s.vlow = false) :
    acceptSleep c s = { s with
      cycles := c, ticks := 0, adcEn := false, ainFloat := true, fsm := .armed
      history := .wdtRestart :: s.history } := by
  have hcond : (s.cfgFailsafeEn && s.vlow) = false := Bool.and_eq_false_iff.2 h
  simp [acceptSleep, armSleep, emit, hcond]

theorem awakeEffect_slpSleep_init (c : Half) {s : State} (hi : s.init = true) :
    awakeEffect (.slpSleep c) s = acceptSleep c s :=
  if_pos hi

theorem awakeEffect_slpSleep_notInit (c : Half) {s : State} (hi : s.init = false) :
    awakeEffect (.slpSleep c) s = recorded .notInit s := by
  simp [awakeEffect, hi, cmdError_eq_recorded]

/-! ### The commands -/

/-- Settles O29, from the two effects of `SLP_INIT` and the refusals that every command shares. -/
theorem slpInitCommand : Obligations.SlpInitCommand := by
  refine ⟨decodeOfEncode .slpInit, fun s hs hi => ?_, fun s hs hi => ?_, rejectedWhileBusy _, reservedBitsIllegal .slpInit⟩
  · rw [exec_awake _ hs, awakeEffect, slpInit_first hi]
  · rw [exec_awake _ hs, awakeEffect, slpInit_again hi]
    rfl

/-- Settles O30, with the word of format H and the two paths of the acceptance. -/
theorem slpSleepCommand : Obligations.SlpSleepCommand := by
  intro c
  refine ⟨decode_of_encode_eq (i := .slpSleep c) (encodeH_eq_or 0x21 c), fun s hs hi => ?_, fun s hs hi hf hv => ?_,
    fun s hs hi h => ?_, rejectedWhileBusy _, reservedBitsIllegal .slpSleep⟩
  · rw [exec_awake _ hs, awakeEffect_slpSleep_notInit c hi]
    rfl
  · rw [exec_awake _ hs, awakeEffect_slpSleep_init c hi, acceptSleep_forced c hf hv]
  · rw [exec_awake _ hs, awakeEffect_slpSleep_init c hi, acceptSleep_normal c h]

end Sys2Proof.Machine
end

section
/-! SUPPORT. O46 and O47: the watchdog's tick and the block's own step as steps of the machine (R121, R122, R128). -/

namespace Sys2Proof.Machine

theorem State.tickEnabled_iff (s : State) : s.tickEnabled = true ↔ s.init = true ∧ s.irqDis = false := by
  simp [State.tickEnabled]

theorem State.tickEnabled_eq_false {s : State} (h : s.init = false ∨ s.irqDis = true) : s.tickEnabled = false := by
  rcases h with h | h <;> simp [State.tickEnabled, h]

/-- The count modulo 2^16, as R121 writes it. -/
theorem half_add_one_eq_ofNat (x : Half) : x + 1 = BitVec.ofNat 16 ((x.toNat + 1) % 2 ^ 16) :=
  BitVec.eq_of_toNat_eq (by simp)

theorem step_tick {s : State} {rest : List Event} (hs : s.sched = .tick :: rest) (hr : s.rstN = true) :
    step s = .next (tick { s with sched := rest }) :=
  step_cons hs hr

theorem step_block {s : State} {rest : List Event} (hs : s.sched = .block :: rest) (hr : s.rstN = true) :
    step s = .next (blockStep { s with sched := rest }) :=
  step_cons hs hr

/-- Settles O46: an enabled tick outside `SLEEPING`, one in `SLEEPING`, and one that is lost. -/
theorem tickStep : Obligations.TickStep := by
  intro s rest hr hs
  rw [step_tick hs hr, ← half_add_one_eq_ofNat]
  refine ⟨fun hi hq hf => ?_, fun hi hq hf => ?_, fun hlost => ?_⟩
  · exact congrArg _ (tick_not_sleeping (s := { s with sched := rest }) ((State.tickEnabled_iff _).2 ⟨hi, hq⟩) hf)
  · exact congrArg _ (tick_sleeping (s := { s with sched := rest }) ((State.tickEnabled_iff _).2 ⟨hi, hq⟩) hf)
  · exact congrArg _ (tick_disabled (s := { s with sched := rest }) (State.tickEnabled_eq_false hlost))

/-- Settles O47: the return and the power-down entry in `ARMED`, and the disabled block step, which the model takes with no
effect (notes/assumptions/2.md). -/
theorem blockStep_spec : Obligations.BlockStep := by
  intro s rest hr hs
  rw [step_block hs hr]
  refine ⟨fun hf hc => ?_, fun hf hc => ?_, fun hf => ?_⟩
  · exact congrArg _ (blockStep_armed_return (s := { s with sched := rest }) hf (BitVec.le_def.2 hc))
  · exact congrArg _ (blockStep_armed_powerDown (s := { s with sched := rest }) hf (BitVec.not_le.2 (BitVec.lt_def.2 hc)))
  · exact congrArg _ (blockStep_not_armed (s := { s with sched := rest }) hf)

end Sys2Proof.Machine
end

section
/-! SUPPORT. O48: of all that an access can do, only an accepted `SLP_SLEEP` moves `fsm` (R119, R120), and the step that makes
an access makes `nextAccess`. -/

namespace Sys2Proof.Machine

/-! ### Ticks and block steps -/

/-- A tick outside `SLEEPING` changes at most `ticks` (R120). -/
theorem tick_keeps_of_not_sleeping {s : State} (hf : s.fsm ≠ .sleeping) : ∃ k, tick s = { s with ticks := k } := by
  cases he : s.tickEnabled with
  | false => exact ⟨s.ticks, tick_disabled he⟩
  | true => exact ⟨s.ticks + 1, tick_not_sleeping he hf⟩

/-- A block step in `ARMED` decides by the compare (R120, R128). -/
theorem blockStep_fsm_of_armed {s : State} (hf : s.fsm = .armed) :
    (blockStep s).fsm = if s.cycles.toNat ≤ s.ticks.toNat then .awake else .sleeping := by
  by_cases hc : s.cycles ≤ s.ticks
  · rw [blockStep_armed_return hf hc, if_pos (BitVec.le_def.1 hc)]
    rfl
  · rw [blockStep_armed_powerDown hf hc, if_neg (mt BitVec.le_def.2 hc)]
    rfl

/-! ### An access that moves `fsm` -/

theorem acceptSleep_fsm (c : Half) (s : State) :
    (acceptSleep c s).fsm = if s.cfgFailsafeEn = true ∧ s.vlow = true then .forcedSleep else .armed := by
  by_cases h : s.cfgFailsafeEn = true ∧ s.vlow = true
  · rw [acceptSleep_forced c h.1 h.2, if_pos h]
  · rw [acceptSleep_normal c (by simpa [imp_iff_not_or] using h), if_neg h]

theorem awakeEffect_frameCommand_fsm {i : Instr} (hi : isFrameCommand i = true) (s : State) :
    (awakeEffect i s).fsm = s.fsm := by
  have hkept := congrArg State.fsm (restoreFrameUnit_awakeEffect hi s)
  exact hkept

/-- Of the commands only an accepted `SLP_SLEEP` moves `fsm` (R120). -/
theorem awakeEffect_fsm_ne {i : Instr} {s : State} (h : (awakeEffect i s).fsm ≠ s.fsm) :
    s.init = true ∧ ∃ c, i = .slpSleep c := by
  cases i with
  | crcInit | crcByte | crcVerify => exact absurd rfl h
  | frmStart | frmByte | fenc | frmFixed | frmCrc | frmRaw | frmDec2 | frmDec =>
    exact (h (awakeEffect_frameCommand_fsm rfl s)).elim
  | slpInit => exact absurd (slpInit_fsm s) h
  | slpSleep c =>
    refine ⟨?_, c, rfl⟩
    by_contra hi
    rw [awakeEffect_slpSleep_notInit c (Bool.eq_false_of_not_eq_true hi)] at h
    exact h rfl

theorem writeCmd_fsm_ne {w : Word} {s t : State} (h : writeCmd w s = .next t) (hne : t.fsm ≠ s.fsm) :
    s.fsm = .awake ∧ s.init = true ∧ ∃ c, w = encode (.slpSleep c) := by
  cases hd : decode w with
  | error e =>
    rw [writeCmd_illegal hd] at h
    cases h
    exact absurd rfl hne
  | ok i =>
    rw [writeCmd_legal hd] at h
    rcases exec_cases h with ⟨ha, rfl⟩ | ⟨_, rfl⟩
    · obtain ⟨hi, c, rfl⟩ := awakeEffect_fsm_ne hne
      exact ⟨ha, hi, c, (encodeOfDecode w _ hd).symm⟩
    · exact absurd rfl hne

/-- A write elsewhere than to `CMD` runs no command (R61). -/
theorem windowWrite_fsm {off : Nat} {w : Word} {s t : State} (hoff : off ≠ Reg.cmd.offset)
    (h : windowWrite off w s = .next t) : t.fsm = s.fsm := by
  unfold windowWrite regWrite at h
  split at h
  · split at h
    · next hr => exact absurd (regAt_some hr) hoff
    all_goals cases h; rfl
  · cases h; rfl

/-- An access that moves `fsm` is the one that a command line `SLP_SLEEP` stands for. -/
theorem busAccess_fsm_ne {a : Access} {s t : State} (h : busAccess a s = .next t) (hne : t.fsm ≠ s.fsm) :
    s.fsm = .awake ∧ s.init = true ∧ ∃ c, a = cmdAccess s.base (.slpSleep c) := by
  cases a with
  | read addr width =>
    rcases busAccess_read_cases h with rfl | ⟨_, rfl⟩
    · exact absurd rfl hne
    · obtain ⟨d, v, hk⟩ := windowRead_keeps (addr - s.base) width s
      exact absurd (congrArg State.fsm hk) hne
  | write addr width w =>
    rcases busAccess_write_cases h with rfl | ⟨hlo, hw⟩
    · exact absurd rfl hne
    by_cases hoff : addr - s.base = Reg.cmd.offset
    · have haddr : addr = s.base := by simp only [Reg.offset] at hoff; omega
      subst addr
      have hwidth : width = 4 := by
        by_contra hn
        have hacc : ¬ accepts (s.base - s.base) width = true := by
          rw [Nat.sub_self, accepts_register_iff width (by decide)]
          exact fun hacc => hn hacc.1
        have hin : s.inWindow s.base = true := inWindow_add s (off := 0) (by decide)
        rw [busAccess_rejected (.inr rfl) hin hacc] at h
        cases h
      subst hwidth
      rw [busAccess_write_cmd] at h
      obtain ⟨ha, hi, c, rfl⟩ := writeCmd_fsm_ne h hne
      exact ⟨ha, hi, c, rfl⟩
    · exact absurd (windowWrite_fsm hoff hw) hne

/-! ### The step that makes an access -/

/-- A step performs `nextAccess`, from the state with the schedule entry, and the host's access, taken. -/
theorem step_nextAccess {s : State} {a : Access} (hr : s.rstN = true) (h : nextAccess s = some a) :
    ∃ ops, step s = busAccess a { s with sched := s.sched.tail, hostOps := ops } := by
  unfold nextAccess at h
  split at h
  · next rest hs =>
    split at h
    · next ha =>
      obtain ⟨ops, ho⟩ := List.head?_eq_some_iff.1 h
      exact ⟨ops, by rw [step_host hr ha hs ho, hs]; rfl⟩
    · cases h
  · next b rest hs =>
    cases h
    exact ⟨s.hostOps, by rw [step_second hr hs, hs]; rfl⟩
  all_goals cases h

theorem busAccess_slpSleep (c : Half) {s : State} (ha : s.fsm = .awake) (hi : s.init = true) :
    busAccess (cmdAccess s.base (.slpSleep c)) s = .next (acceptSleep c s) :=
  calc busAccess (cmdAccess s.base (.slpSleep c)) s
      = writeCmd (encode (.slpSleep c)) s := busAccess_write_cmd _ s
    _ = exec (.slpSleep c) s := writeCmd_legal (decodeOfEncode _) s
    _ = .next (acceptSleep c s) := by rw [exec_awake _ ha, awakeEffect_slpSleep_init c hi]

theorem step_slpSleep {s : State} {c : Half} (hr : s.rstN = true)
    (h : nextAccess s = some (cmdAccess s.base (.slpSleep c))) (ha : s.fsm = .awake) (hi : s.init = true) :
    ∃ ops, step s = .next (acceptSleep c { s with sched := s.sched.tail, hostOps := ops }) := by
  obtain ⟨ops, hstep⟩ := step_nextAccess hr h
  exact ⟨ops, hstep.trans (busAccess_slpSleep c (s := { s with sched := s.sched.tail, hostOps := ops }) ha hi)⟩

/-- Only the head of the schedule says which access comes next. -/
theorem nextAccess_cons {s : State} {e : Event} {rest : List Event} (hs : s.sched = e :: rest) :
    nextAccess s = nextAccess { s with sched := [e] } := by
  cases e <;> simp only [nextAccess, hs]

/-! ### The transition relation -/

/-- Every way in which a move can change `fsm` (R120). -/
theorem agentMove_fsm_ne {e : Event} {s t : State} (hr : s.rstN = true) (h : agentMove e s = .next t)
    (hne : t.fsm ≠ s.fsm) :
    (s.fsm = .awake ∧ s.init = true
        ∧ ∃ c, nextAccess { s with sched := [e] } = some (cmdAccess s.base (.slpSleep c)))
      ∨ (s.fsm = .armed ∧ e = .block) ∨ (s.fsm = .sleeping ∧ e = .tick) ∨ e = .rstN false := by
  cases e with
  | host =>
    rcases hostMove_cases h with ⟨rfl, _⟩ | ⟨ha, a, ops, ho, hacc⟩
    · exact absurd rfl hne
    · obtain ⟨_, hi, c, rfl⟩ := busAccess_fsm_ne hacc hne
      exact .inl ⟨ha, hi, c, by simp [nextAccess, ha, ho]⟩
  | second a =>
    obtain ⟨ha, hi, c, rfl⟩ := busAccess_fsm_ne h hne
    exact .inl ⟨ha, hi, c, rfl⟩
  | tick =>
    cases h
    refine .inr (.inr (.inl ⟨by_contra fun hf => ?_, rfl⟩))
    obtain ⟨k, hk⟩ := tick_keeps_of_not_sleeping hf
    rw [hk] at hne
    exact hne rfl
  | block =>
    cases h
    refine .inr (.inl ⟨by_contra fun hf => ?_, rfl⟩)
    rw [blockStep_not_armed hf] at hne
    exact hne rfl
  | vlow level => cases h; exact absurd rfl hne
  | rstN level =>
    cases level with
    | false => exact .inr (.inr (.inr rfl))
    | true =>
      cases h
      rw [driveReset_high hr] at hne
      exact absurd rfl hne

/-- Settles O48: the acceptance, the block step, the tick and reset enter the states of R120, and `agentMove_fsm_ne` says that
there is no other way. -/
theorem fsmTransitions : Obligations.FsmTransitions := by
  intro s t hr hinv hstep
  refine ⟨fun c hacc ha hi => ?_, fun hb hf => ?_, fun htk hf => ?_, fun htk hf => ?_, fun hrst => ?_, fun hne => ?_⟩
  · obtain ⟨ops, hnext⟩ := step_slpSleep hr hacc ha hi
    rw [hnext] at hstep
    cases hstep
    exact acceptSleep_fsm c _
  · obtain ⟨rest, hs⟩ := List.head?_eq_some_iff.1 hb
    rw [step_block hs hr] at hstep
    cases hstep
    exact blockStep_fsm_of_armed hf
  · obtain ⟨rest, hs⟩ := List.head?_eq_some_iff.1 htk
    obtain ⟨_, _, _, _, hirq, hinit, _⟩ := hinv
    have hon : s.tickEnabled = true := s.tickEnabled_iff.2 ⟨hinit (by simp [hf]), by rw [hirq, hf]; rfl⟩
    rw [step_tick hs hr, tick_sleeping (s := { s with sched := rest }) hon hf] at hstep
    cases hstep
    rfl
  · obtain ⟨rest, hs⟩ := List.head?_eq_some_iff.1 htk
    obtain ⟨k, hk⟩ := tick_keeps_of_not_sleeping (s := { s with sched := rest }) hf
    rw [step_tick hs hr, hk] at hstep
    cases hstep
    rfl
  · obtain ⟨rest, hs⟩ := List.head?_eq_some_iff.1 hrst
    rw [step_cons hs hr] at hstep
    cases hstep
    rfl
  · rcases step_cases hstep with ⟨_, _, rfl⟩ | ⟨e, rest, u, hs, hm, rfl⟩
    · exact absurd rfl hne
    · rw [if_pos hr] at hne
      rw [nextAccess_cons hs, hs, List.head?_cons]
      simpa only [Option.some.injEq] using agentMove_fsm_ne (s := { s with sched := rest }) hr hm hne

end Sys2Proof.Machine
end

section
/-! SUPPORT. What one step does while a sleep of either kind lasts and no reset is scheduled (R136, R145): only the watchdog and
the block move the sleep unit. -/

namespace Sys2Proof.Machine

/-- `t` has the sleep unit's count and state of `s`, with the same inputs to them. -/
structure KeepsSleep (s t : State) : Prop where
  setup : KeepsSleepSetup s t
  fsm : t.fsm = s.fsm
  ticks : t.ticks = s.ticks

theorem KeepsSleep.refl (s : State) : KeepsSleep s s := ⟨⟨rfl, rfl, rfl, rfl⟩, rfl, rfl⟩

theorem KeepsSleepSetup.trans {s t u : State} (h : KeepsSleepSetup s t) (h' : KeepsSleepSetup t u) : KeepsSleepSetup s u :=
  ⟨h'.cycles.trans h.cycles, h'.init.trans h.init, h'.irqDis.trans h.irqDis, h'.rstN.trans h.rstN⟩

theorem KeepsSleep.trans {s t u : State} (h : KeepsSleep s t) (h' : KeepsSleep t u) : KeepsSleep s u :=
  ⟨h.setup.trans h'.setup, h'.fsm.trans h.fsm, h'.ticks.trans h.ticks⟩

theorem tick_keepsSetup (s : State) : KeepsSleepSetup s (tick s) :=
  ⟨tick_cycles s, tick_init s, tick_irqDis s, tick_rstN s⟩

theorem blockStep_keepsSetup (s : State) : KeepsSleepSetup s (blockStep s) :=
  ⟨blockStep_cycles s, blockStep_init s, blockStep_irqDis s, blockStep_rstN s⟩

/-- During a sleep a move without reset is the tick, the block step, or nothing to the sleep unit. -/
theorem agentMove_not_awake {e : Event} {s t : State} (hs : s.fsm ≠ .awake) (he : ∀ level, e ≠ .rstN level)
    (h : agentMove e s = .next t) :
    (e = .tick ∧ t = tick s) ∨ (e = .block ∧ t = blockStep s) ∨ KeepsSleep s t := by
  cases e with
  | tick => cases h; exact .inl ⟨rfl, rfl⟩
  | block => cases h; exact .inr (.inl ⟨rfl, rfl⟩)
  | host =>
    rcases hostMove_cases h with ⟨rfl, _⟩ | ⟨ha, _⟩
    · exact .inr (.inr (.refl t))
    · exact absurd ha hs
  | second a =>
    obtain ⟨hk, hf, ht⟩ := busAccess_not_awake hs h
    exact .inr (.inr ⟨hk, hf, ht⟩)
  | vlow level => cases h; exact .inr (.inr ⟨⟨rfl, rfl, rfl, rfl⟩, rfl, rfl⟩)
  | rstN level => exact absurd rfl (he level)

theorem NoReset.tail {es : List Event} (h : NoReset es) : NoReset es.tail :=
  fun level hm => h level (List.mem_of_mem_tail hm)

/-- A step without reset: nothing is left to happen, or the next agent moves. -/
theorem step_cases_noReset {s t : State} (hr : s.rstN = true) (hn : NoReset s.sched) (h : step s = .next t) :
    (s.sched = [] ∧ t = s) ∨
      ∃ e rest, s.sched = e :: rest ∧ (∀ level, e ≠ .rstN level) ∧ agentMove e { s with sched := rest } = .next t := by
  rcases step_cases h with ⟨hs, _, rfl⟩ | ⟨e, rest, u, hs, hm, rfl⟩
  · exact .inl ⟨hs, rfl⟩
  · rw [if_pos hr]
    exact .inr ⟨e, rest, hs, fun level he => hn level (by rw [hs, he]; exact List.mem_cons_self), hm⟩

end Sys2Proof.Machine
end

section
/-! SUPPORT. O52: in `FORCED_SLEEP` the tick is off and the block has no step, so every step leaves the sleep unit alone, and the
host is held. -/

namespace Sys2Proof.Machine

theorem agentMove_forcedSleep {e : Event} {s t : State} (hf : s.fsm = .forcedSleep) (hq : s.irqDis = true)
    (he : ∀ level, e ≠ .rstN level) (h : agentMove e s = .next t) : KeepsSleep s t := by
  have not_awake : s.fsm ≠ .awake := by simp [hf]
  have not_armed : s.fsm ≠ .armed := by simp [hf]
  rcases agentMove_not_awake not_awake he h with ⟨_, rfl⟩ | ⟨_, rfl⟩ | hk
  · rw [tick_disabled (State.tickEnabled_eq_false (.inr hq))]
    exact .refl s
  · rw [blockStep_not_armed not_armed]
    exact .refl s
  · exact hk

theorem step_forcedSleep {s t : State} (hf : s.fsm = .forcedSleep) (hq : s.irqDis = true) (hr : s.rstN = true)
    (hn : NoReset s.sched) (h : step s = .next t) : KeepsSleep s t := by
  rcases step_cases_noReset hr hn h with ⟨_, rfl⟩ | ⟨e, rest, _, he, hm⟩
  · exact .refl t
  · have taken : KeepsSleep s { s with sched := rest } := ⟨⟨rfl, rfl, rfl, rfl⟩, rfl, rfl⟩
    exact taken.trans (agentMove_forcedSleep hf hq he hm)

theorem step_hostOps_of_not_awake {s t : State} (hs : s.fsm ≠ .awake) (h : step s = .next t) : t.hostOps = s.hostOps := by
  obtain ⟨_, _, hops | ⟨ha, _⟩⟩ := step_pending h
  · exact hops
  · exact absurd ha hs

theorem run_forcedSleep {n : Nat} {s t : State} (hf : s.fsm = .forcedSleep) (hq : s.irqDis = true) (hr : s.rstN = true)
    (hn : NoReset s.sched) (h : Sys2Proof.core.run n s = .next t) : KeepsSleep s t ∧ t.hostOps = s.hostOps := by
  induction n generalizing s with
  | zero => cases h; exact ⟨.refl _, rfl⟩
  | succ n ih =>
    obtain ⟨u, hstep, hrun⟩ := (run_succ n s t).1 h
    have hk := step_forcedSleep hf hq hr hn hstep
    have hops := step_hostOps_of_not_awake (by simp [hf]) hstep
    have hnu : NoReset u.sched := by
      rw [(step_pending hstep).1]
      exact hn.tail
    obtain ⟨hk', hops'⟩ := ih (hk.fsm.trans hf) (hk.setup.irqDis.trans hq) (hk.setup.rstN.trans hr) hnu hrun
    exact ⟨hk.trans hk', hops'.trans hops⟩

/-- Settles O52, by induction on the number of steps. -/
theorem forcedSleepIsTerminal : Obligations.ForcedSleepIsTerminal := by
  intro n s hf hq hr hn
  refine ⟨fun t h => ?_, fun hs => ?_⟩
  · obtain ⟨hk, hops⟩ := run_forcedSleep hf hq hr hn h
    exact ⟨hk.fsm.trans hf, hops, hk.ticks, hk.setup.cycles⟩
  · simp [step, hs, noEvent, hf]

end Sys2Proof.Machine
end

section
/-! SUPPORT. O53: a move adds at most its own tick to `ticks`, wrap or no wrap, and the return needs `ticks >= cycles` (R128). -/

namespace Sys2Proof.Machine

/-- A move that stands for at most `k` ticks: it adds no more to the count, and it returns only a sleep whose count is
reached. -/
structure CountsAtMost (k : Nat) (s t : State) : Prop where
  setup : KeepsSleepSetup s t
  ticks : t.ticks.toNat ≤ s.ticks.toNat + k
  returns : t.fsm = .awake → s.cycles.toNat ≤ s.ticks.toNat

theorem KeepsSleep.countsAtMost {s t : State} (h : KeepsSleep s t) (hs : s.fsm ≠ .awake) (k : Nat) : CountsAtMost k s t where
  setup := h.setup
  ticks := by rw [h.ticks]; exact Nat.le_add_right _ _
  returns ha := absurd (h.fsm.symm.trans ha) hs

theorem half_toNat_add_one_le (x : Half) : (x + 1).toNat ≤ x.toNat + 1 := by
  rw [BitVec.toNat_add]
  exact Nat.mod_le _ _

/-- A tick wakes a sleep but never returns it (R120). -/
theorem tick_countsAtMost {s : State} (hs : s.fsm ≠ .awake) : CountsAtMost 1 s (tick s) := by
  cases he : s.tickEnabled with
  | false =>
    rw [tick_disabled he]
    exact (KeepsSleep.refl s).countsAtMost hs 1
  | true =>
    have hone := half_toNat_add_one_le s.ticks
    by_cases hf : s.fsm = .sleeping
    · rw [tick_sleeping he hf]
      exact ⟨⟨rfl, rfl, rfl, rfl⟩, hone, Fsm.noConfusion⟩
    · rw [tick_not_sleeping he hf]
      exact ⟨⟨rfl, rfl, rfl, rfl⟩, hone, fun ha => absurd ha hs⟩

theorem blockStep_countsAtMost {s : State} (hs : s.fsm ≠ .awake) : CountsAtMost 0 s (blockStep s) where
  setup := blockStep_keepsSetup s
  ticks := by rw [blockStep_ticks]; exact Nat.le_refl _
  returns ha := by
    by_cases hf : s.fsm = .armed
    · by_contra hc
      rw [blockStep_fsm_of_armed hf, if_neg hc] at ha
      cases ha
    · rw [blockStep_not_armed hf] at ha
      exact absurd ha hs

theorem agentMove_countsAtMost {e : Event} {s t : State} (hs : s.fsm ≠ .awake) (he : ∀ level, e ≠ .rstN level)
    (h : agentMove e s = .next t) : CountsAtMost ([e].count .tick) s t := by
  rcases agentMove_not_awake hs he h with ⟨rfl, rfl⟩ | ⟨rfl, rfl⟩ | hk
  · exact tick_countsAtMost hs
  · exact blockStep_countsAtMost hs
  · exact hk.countsAtMost hs _

theorem step_countsAtMost {s t : State} (hs : s.fsm ≠ .awake) (hr : s.rstN = true) (hn : NoReset s.sched)
    (h : step s = .next t) : CountsAtMost ((s.sched.take 1).count .tick) s t := by
  rcases step_cases_noReset hr hn h with ⟨_, rfl⟩ | ⟨e, rest, hsched, he, hm⟩
  · exact (KeepsSleep.refl t).countsAtMost hs _
  · obtain ⟨⟨kc, ki, kq, kr⟩, hticks, hreturns⟩ := agentMove_countsAtMost (s := { s with sched := rest }) hs he hm
    rw [hsched]
    exact ⟨⟨kc, ki, kq, kr⟩, hticks, hreturns⟩

/-- The ticks among the first events, the first event apart. -/
theorem count_take_succ (es : List Event) (n : Nat) :
    (es.take (n + 1)).count .tick = (es.take 1).count .tick + (es.tail.take n).count .tick := by
  cases es with
  | nil => simp
  | cons e es => exact List.count_append (l₁ := [e])

theorem cycles_le_ticks_add_count {n : Nat} {s t : State} (hs : s.fsm ≠ .awake) (hr : s.rstN = true) (hn : NoReset s.sched)
    (h : Sys2Proof.core.run n s = .next t) (ht : t.fsm = .awake) :
    s.cycles.toNat ≤ s.ticks.toNat + (s.sched.take n).count .tick := by
  induction n generalizing s with
  | zero => cases h; exact absurd ht hs
  | succ n ih =>
    obtain ⟨u, hstep, hrun⟩ := (run_succ n s t).1 h
    obtain ⟨hk, hticks, hreturns⟩ := step_countsAtMost hs hr hn hstep
    by_cases hu : u.fsm = .awake
    · exact (hreturns hu).trans (Nat.le_add_right _ _)
    · have hsched := (step_pending hstep).1
      have hrest := ih hu (hk.rstN.trans hr) (by rw [hsched]; exact hn.tail) hrun
      rw [hk.cycles, hsched] at hrest
      rw [count_take_succ]
      omega

/-- Settles O53: `ticks` starts at 0. -/
theorem sleepNeverReturnsEarly : Obligations.SleepNeverReturnsEarly := by
  intro n s t hf hz hr hn h ht
  have hle := cycles_le_ticks_add_count (by simp [hf]) hr hn h ht
  rw [hz] at hle
  simpa using hle

end Sys2Proof.Machine
end

section
/-! SUPPORT. O54: under the `ARMED` bound `ticks` does not wrap, so over ticks and block steps it counts the ticks exactly, and
the block step after the last of them finds the count reached. -/

namespace Sys2Proof.Machine

/-! ### Runs over ticks and block steps -/

theorem host_run_of_step {M : Host.Core} {s u : M.State} (h : M.step s = .next u) (n : Nat) :
    M.run (n + 1) s = M.run n u := by
  simp only [Host.Core.run, h]

theorem run_of_step {s u : State} (h : step s = .next u) (n : Nat) :
    Sys2Proof.core.run (n + 1) s = Sys2Proof.core.run n u :=
  host_run_of_step (M := Sys2Proof.core) h n

theorem tick_setSched (s : State) (es : List Event) : tick { s with sched := es } = { tick s with sched := es } := by
  cases he : s.tickEnabled with
  | false => rw [tick_disabled he, tick_disabled (s := { s with sched := es }) he]
  | true =>
    by_cases hf : s.fsm = .sleeping
    · rw [tick_sleeping he hf, tick_sleeping (s := { s with sched := es }) he hf]
      rfl
    · rw [tick_not_sleeping he hf, tick_not_sleeping (s := { s with sched := es }) he hf]

theorem blockStep_setSched (s : State) (es : List Event) :
    blockStep { s with sched := es } = { blockStep s with sched := es } := by
  by_cases hf : s.fsm = .armed
  · by_cases hc : s.cycles ≤ s.ticks
    · rw [blockStep_armed_return hf hc, blockStep_armed_return (s := { s with sched := es }) hf hc]
      rfl
    · rw [blockStep_armed_powerDown hf hc, blockStep_armed_powerDown (s := { s with sched := es }) hf hc]
      rfl
  · rw [blockStep_not_armed hf, blockStep_not_armed (s := { s with sched := es }) hf]

/-- A step of the watchdog or the block is its `sleepMove`. -/
theorem step_sleepMove {e : Event} {s : State} (he : e = .tick ∨ e = .block) (hr : s.rstN = true) (es : List Event) :
    step { s with sched := e :: es } = .next { sleepMove e s with sched := es } := by
  rcases he with rfl | rfl
  · rw [sleepMove, ← tick_setSched]
    exact step_tick rfl hr
  · rw [sleepMove, ← blockStep_setSched]
    exact step_block rfl hr

theorem sleepMove_keepsSetup (e : Event) (s : State) : KeepsSleepSetup s (sleepMove e s) := by
  cases e with
  | tick => exact tick_keepsSetup s
  | block => exact blockStep_keepsSetup s
  | host | second | vlow | rstN => exact ⟨rfl, rfl, rfl, rfl⟩

theorem sleepMove_awake (e : Event) {s : State} (hs : s.fsm = .awake) : (sleepMove e s).fsm = .awake := by
  cases e with
  | tick =>
    obtain ⟨k, hk⟩ := tick_keeps_of_not_sleeping (s := s) (by simp [hs])
    rw [sleepMove, hk]
    exact hs
  | block => rwa [sleepMove, blockStep_not_armed (by simp [hs])]
  | host | second | vlow | rstN => exact hs

theorem sleepMove_sleepMoves {e : Event} {s : State} (he : e = .tick ∨ e = .block) (h : Asleep s) :
    SleepMoves e s (sleepMove e s) := by
  rcases he with rfl | rfl
  · exact tick_sleepMoves h
  · exact blockStep_sleepMoves h

/-- Ticks and block steps leave an awake unit awake. -/
theorem run_awake {moves : List Event} (rest : List Event) {s : State} (ha : s.fsm = .awake) (hr : s.rstN = true)
    (hm : ∀ e ∈ moves, e = .tick ∨ e = .block) :
    ∃ t, Sys2Proof.core.run moves.length { s with sched := moves ++ rest } = .next t ∧ t.fsm = .awake := by
  induction moves generalizing s with
  | nil => exact ⟨_, rfl, ha⟩
  | cons e es ih =>
    obtain ⟨he, hes⟩ := List.forall_mem_cons.1 hm
    obtain ⟨t, ht, hta⟩ := ih (sleepMove_awake e ha) ((sleepMove_keepsSetup e s).rstN.trans hr) hes
    exact ⟨t, (run_of_step (step_sleepMove he hr (es ++ rest)) es.length).trans ht, hta⟩

/-! ### The `ARMED` bound along a schedule -/

/-- The ticks of the current `ARMED` interval after one event more, as `armedBound` counts them. -/
def armedTicks (n : Nat) (e : Event) (s : State) : Nat :=
  if s.fsm = .armed then (if e = .tick then n + 1 else if e = .block then 0 else n) else 0

theorem armedBound_cons (n : Nat) (e : Event) (es : List Event) (s : State) :
    armedBound n (e :: es) s = true ↔
      armedTicks n e s < 65536 - s.cycles.toNat ∧ armedBound (armedTicks n e s) es (sleepMove e s) = true := by
  simp only [armedBound, armedTicks, Bool.and_eq_true, decide_eq_true_iff]

/-- A sleep in progress with `n` ticks in the current `ARMED` interval, which began with at most `cycles` ticks. -/
structure WithinBound (n : Nat) (s : State) : Prop where
  asleep : Asleep s
  armed : s.fsm = .armed → s.ticks.toNat ≤ s.cycles.toNat + n
  sleeping : s.fsm = .sleeping → s.ticks.toNat < s.cycles.toNat

/-- Within the bound the count of ticks is exact. -/
theorem WithinBound.ticks_next {n : Nat} {e : Event} {s t : State} (h : WithinBound n s) (hm : SleepMoves e s t)
    (hb : armedTicks n e s < 65536 - s.cycles.toNat) : t.ticks.toNat = s.ticks.toNat + [e].count .tick := by
  have hcycles := s.cycles.isLt
  cases hm with
  | counts he hs _ ht =>
    have hticks := h.armed hs
    subst he
    rw [armedTicks, if_pos hs, if_pos rfl] at hb
    rw [ht, half_toNat_add_one rfl (by omega)]
    rfl
  | wakes he hs _ ht =>
    have hticks := h.sleeping hs
    subst he
    rw [ht, half_toNat_add_one rfl (by omega)]
    rfl
  | returns he _ _ _ ht | powersDown he _ _ _ ht =>
    subst he
    rw [ht]
    rfl
  | rests he _ _ ht => rw [ht, List.count_singleton, if_neg (by simpa using he), Nat.add_zero]

theorem WithinBound.sleeping_next {n : Nat} {e : Event} {s t : State} (h : WithinBound n s) (hm : SleepMoves e s t)
    (hf : t.fsm = .sleeping) : t.ticks.toNat < s.cycles.toNat := by
  cases hm with
  | counts _ _ hf' | wakes _ _ hf' | returns _ _ _ hf' => rw [hf] at hf'; cases hf'
  | powersDown _ _ hc _ ht => rw [ht]; exact hc
  | rests _ _ hf' ht => rw [ht]; exact h.sleeping (hf'.symm.trans hf)

/-- An `ARMED` interval goes on with its count of ticks, or begins with at most `cycles` ticks. -/
theorem WithinBound.armed_next {n : Nat} {e : Event} {s t : State} (h : WithinBound n s) (hm : SleepMoves e s t)
    (hb : armedTicks n e s < 65536 - s.cycles.toNat) (hf : t.fsm = .armed) :
    t.ticks.toNat ≤ s.cycles.toNat + armedTicks n e s := by
  rw [h.ticks_next hm hb]
  cases hm with
  | counts he hs =>
    have hle := h.armed hs
    simp only [armedTicks, hs, he, if_true, List.count_singleton_self]
    omega
  | wakes he hs =>
    have hlt := h.sleeping hs
    simp only [he, List.count_singleton_self]
    omega
  | returns _ _ _ hf' | powersDown _ _ _ hf' => rw [hf] at hf'; cases hf'
  | rests he hs hf' =>
    have hs' : s.fsm = .armed := hf'.symm.trans hf
    have hblock : e ≠ .block := fun hb => by rw [hs hb] at hs'; cases hs'
    simpa [armedTicks, hs', he, hblock] using h.armed hs'

theorem WithinBound.next {n : Nat} {e : Event} {s t : State} (h : WithinBound n s) (hm : SleepMoves e s t)
    (hk : KeepsSleepSetup s t) (hb : armedTicks n e s < 65536 - s.cycles.toNat) (ha : t.fsm ≠ .awake) :
    WithinBound (armedTicks n e s) t where
  asleep := h.asleep.next hk hm ha
  armed hf := by rw [hk.cycles]; exact h.armed_next hm hb hf
  sleeping hf := by rw [hk.cycles]; exact h.sleeping_next hm hf

/-- Within the bound, enough ticks and one block step more end the sleep. -/
theorem run_returns_of_armedBound {moves : List Event} (rest : List Event) {n : Nat} {s : State} (h : WithinBound n s)
    (hm : ∀ e ∈ moves, e = .tick ∨ e = .block) (hb : armedBound n moves s = true)
    (hc : s.cycles.toNat ≤ s.ticks.toNat + moves.count .tick) :
    ∃ t, Sys2Proof.core.run (moves.length + 1) { s with sched := moves ++ .block :: rest } = .next t ∧ t.fsm = .awake := by
  induction moves generalizing n s with
  | nil =>
    have hf : s.fsm = .armed := h.asleep.fsm.resolve_right fun hf => Nat.not_lt.2 hc (h.sleeping hf)
    refine ⟨_, run_of_step (step_sleepMove (.inr rfl) h.asleep.rstN rest) 0, ?_⟩
    exact (blockStep_fsm_of_armed hf).trans (if_pos hc)
  | cons e es ih =>
    obtain ⟨he, hes⟩ := List.forall_mem_cons.1 hm
    obtain ⟨hbe, hbes⟩ := (armedBound_cons n e es s).1 hb
    have hk := sleepMove_keepsSetup e s
    have hmove := sleepMove_sleepMoves he h.asleep
    suffices ∃ t, Sys2Proof.core.run (es.length + 1) { sleepMove e s with sched := es ++ .block :: rest } = .next t
        ∧ t.fsm = .awake by
      obtain ⟨t, ht, hta⟩ := this
      have hstep := step_sleepMove he h.asleep.rstN (es ++ .block :: rest)
      exact ⟨t, (run_of_step hstep (es.length + 1)).trans ht, hta⟩
    by_cases ha : (sleepMove e s).fsm = .awake
    · have hall : ∀ d ∈ es ++ [.block], d = .tick ∨ d = .block := by
        simpa [or_imp, forall_and] using hes
      simpa using run_awake rest ha (hk.rstN.trans h.asleep.rstN) hall
    · refine ih (h.next hmove hk hbe ha) hes hbes ?_
      rw [hk.cycles, h.ticks_next hmove hbe, Nat.add_assoc, ← List.count_append]
      exact hc

/-- Settles O54: the sleep begins within the bound, with `ticks` = 0. -/
theorem sleepReturnsUnderArmedBound : Obligations.SleepReturnsUnderArmedBound := by
  intro s moves rest hf hz hi hq hr hsched hm hb hc
  have hticks : s.ticks.toNat = 0 := by rw [hz]; rfl
  have h : WithinBound 0 s :=
    ⟨⟨.inl hf, hi, hq, hr⟩, fun _ => by omega, fun hs => by rw [hf] at hs; cases hs⟩
  have hs : { s with sched := moves ++ .block :: rest } = s := by rw [← hsched]
  have hrun := run_returns_of_armedBound rest h hm hb (by omega)
  rwa [hs] at hrun

end Sys2Proof.Machine
end

section
/-! SUPPORT. O55: the trace of R135, one round of power-down and wake at a time. -/

namespace Sys2Proof.Machine

/-- The wake takes back what the power-down entry did (R129, R130). -/
theorem wake_enterPowerDown {s : State} (hf : s.fsm = .armed) (hp : s.pdReq = false) (hb : s.bodOff = false) (k : Half) :
    wake { enterPowerDown s with ticks := k } = { s with ticks := k } := by
  cases s
  cases hf
  cases hp
  cases hb
  rfl

/-- A round short of the count: the block enters power-down and the tick wakes it, so only `ticks` is new (R135). -/
theorem run_sleepRound {s : State} (h : Asleep s) (hf : s.fsm = .armed) (hp : s.pdReq = false) (hb : s.bodOff = false)
    (hc : s.ticks.toNat < s.cycles.toNat) (n : Nat) (es : List Event) :
    Sys2Proof.core.run (n + 2) { s with sched := .block :: .tick :: es } =
      Sys2Proof.core.run n { s with sched := es, ticks := s.ticks + 1 } := by
  have hdown : sleepMove .block s = enterPowerDown s :=
    blockStep_armed_powerDown hf (BitVec.not_le.2 (BitVec.lt_def.2 hc))
  have hwake : sleepMove .tick (enterPowerDown s) = { s with ticks := s.ticks + 1 } :=
    (tick_sleeping (s := enterPowerDown s) h.tickEnabled rfl).trans (wake_enterPowerDown hf hp hb _)
  rw [run_of_step (step_sleepMove (.inr rfl) h.rstN _), hdown,
    run_of_step (step_sleepMove (s := enterPowerDown s) (.inl rfl) h.rstN es), hwake]

theorem run_sleepTrace {k : Nat} (rest : List Event) {s : State} (h : Asleep s) (hf : s.fsm = .armed) (hp : s.pdReq = false)
    (hb : s.bodOff = false) (hk : s.ticks.toNat + k = s.cycles.toNat) :
    Sys2Proof.core.run (2 * k + 1) { s with sched := sleepTrace k ++ rest } =
      .next { s with sched := rest, ticks := s.cycles, adcEn := true, fsm := .awake } := by
  induction k generalizing s with
  | zero =>
    have hticks : s.ticks = s.cycles := BitVec.eq_of_toNat_eq hk
    have hreturn : sleepMove .block s = returnFromSleep s := blockStep_armed_return hf (by simp [hticks])
    rw [sleepTrace, List.singleton_append, run_of_step (step_sleepMove (.inr rfl) h.rstN rest), hreturn]
    simp only [returnFromSleep, hticks]
    rfl
  | succ k ih =>
    have hcycles := s.cycles.isLt
    have hnext : (s.ticks + 1).toNat = s.ticks.toNat + 1 := half_toNat_add_one rfl (by omega)
    have hround := run_sleepRound h hf hp hb (by omega) (2 * k + 1) (sleepTrace k ++ rest)
    have hrest := ih (s := { s with ticks := s.ticks + 1 }) ⟨.inl hf, h.init, h.irqDis, h.rstN⟩ hf hp hb
      (by simp only [hnext]; omega)
    exact hround.trans hrest

/-- Settles O55: `cycles` rounds from `ticks` = 0. -/
theorem sleepTraceReturns : Obligations.SleepTraceReturns := by
  intro s rest hf hz hi hq hr hp hb hsched
  have hs : { s with sched := sleepTrace s.cycles.toNat ++ rest } = s := by rw [← hsched]
  have hrun := run_sleepTrace (k := s.cycles.toNat) rest ⟨.inl hf, hi, hq, hr⟩ hf hp hb (by simp [hz])
  rwa [hs] at hrun

end Sys2Proof.Machine
end

section
/-! SUPPORT. O58 and O50: what a move does to the error record, the sticky flags and `rst_n`. A command may record an error or
set a flag; only a write to `STATUS` and reset clear one (R26, R38, R155). -/

namespace Sys2Proof.Machine

/-- The error record is unchanged, or an error was raised: the first code since the last clear is kept (R137). -/
def KeepsRecord (s t : State) : Prop :=
  (t.cmdErr = s.cmdErr ∧ t.errCode = s.errCode)
    ∨ ∃ c ≠ ErrCode.none, t.cmdErr = true ∧ t.errCode = if s.cmdErr = true then s.errCode else c

/-- Nothing that is set in `s` is cleared in `t`, and `rst_n` is the same. -/
structure KeepsFlags (s t : State) : Prop where
  init : s.init = true → t.init = true
  record : KeepsRecord s t
  frmOvf : s.frmOvf = true → t.frmOvf = true
  fencRng : s.fencRng = true → t.fencRng = true
  rstN : t.rstN = s.rstN

/-- A code that is kept or newly recorded stands with `cmd_err` (R137). -/
theorem KeepsRecord.errorInv {s t : State} (h : KeepsRecord s t) (hs : ErrorInv s) : ErrorInv t := by
  rcases h with ⟨herr, hcode⟩ | ⟨c, hc, herr, hcode⟩
  · rwa [ErrorInv, herr, hcode]
  · refine iff_of_false (by simp [herr]) ?_
    rw [hcode]
    split
    · next hset => exact fun hnone => by rw [hs.2 hnone] at hset; cases hset
    · exact hc

theorem KeepsRecord.of_set {s t : State} (h : KeepsRecord s t) (hset : s.cmdErr = true) :
    t.cmdErr = true ∧ t.errCode = s.errCode := by
  rcases h with ⟨herr, hcode⟩ | ⟨c, _, herr, hcode⟩
  · exact ⟨herr.trans hset, hcode⟩
  · exact ⟨herr, hcode.trans (if_pos hset)⟩

/-! ### Commands -/

theorem keepsFlags_of_eq {s t : State} (hi : t.init = s.init) (he : t.cmdErr = s.cmdErr) (hc : t.errCode = s.errCode)
    (ho : t.frmOvf = s.frmOvf) (hf : t.fencRng = s.fencRng) (hr : t.rstN = s.rstN) : KeepsFlags s t :=
  ⟨hi.trans, .inl ⟨he, hc⟩, ho.trans, hf.trans, hr⟩

theorem KeepsFlags.refl (s : State) : KeepsFlags s s := keepsFlags_of_eq rfl rfl rfl rfl rfl rfl

theorem keepsFlags_recorded {c : ErrCode} (hc : c ≠ .none) (s : State) : KeepsFlags s (recorded c s) :=
  ⟨id, .inr ⟨c, hc, rfl, rfl⟩, id, id, rfl⟩

/-- The schedule and the host's accesses are no flags. -/
theorem KeepsFlags.of_taken {s t : State} {es : List Event} {ops : List Access}
    (h : KeepsFlags { s with sched := es, hostOps := ops } t) : KeepsFlags s t :=
  ⟨h.init, h.record, h.frmOvf, h.fencRng, h.rstN⟩

/-- The sticky range flag (R102). -/
theorem keepsFlags_encodeReading (s : State) : KeepsFlags s (encodeReading s) :=
  ⟨id, .inl ⟨rfl, rfl⟩, id, fun h => by rw [encodeReading_fencRng, h, Bool.true_or], rfl⟩

theorem appendAll_frmOvf_of_set (bs : List Byte) {s : State} (h : s.frmOvf = true) : (appendAll bs s).frmOvf = true := by
  obtain ⟨_, hovf, _⟩ := appendAll_appends bs s
  rw [hovf, h, Bool.true_or]

/-- The sticky overflow flag (R98). -/
theorem KeepsFlags.appendAll {s t : State} (h : KeepsFlags s t) (bs : List Byte) : KeepsFlags s (appendAll bs t) where
  init hi := (appendAll_init bs t).trans (h.init hi)
  record := by simpa only [KeepsRecord, appendAll_cmdErr, appendAll_errCode] using h.record
  frmOvf ho := appendAll_frmOvf_of_set bs (h.frmOvf ho)
  fencRng hf := (appendAll_fencRng bs t).trans (h.fencRng hf)
  rstN := (appendAll_rstN bs t).trans h.rstN

theorem KeepsFlags.feedCrc {s t : State} (h : KeepsFlags s t) (b : Byte) : KeepsFlags s (feedCrc b t) :=
  ⟨h.init, h.record, h.frmOvf, h.fencRng, h.rstN⟩

theorem keepsFlags_slpInit (s : State) : KeepsFlags s (slpInit s) := by
  cases hi : s.init with
  | true => rw [slpInit_again hi]; exact keepsFlags_recorded ErrCode.noConfusion s
  | false => rw [slpInit_first hi]; exact ⟨fun _ => rfl, .inl ⟨rfl, rfl⟩, id, id, rfl⟩

theorem keepsFlags_acceptSleep (c : Half) (s : State) : KeepsFlags s (acceptSleep c s) :=
  keepsFlags_of_eq (acceptSleep_init c s) (acceptSleep_cmdErr c s) (acceptSleep_errCode c s) (acceptSleep_frmOvf c s)
    (acceptSleep_fencRng c s) (acceptSleep_rstN c s)

theorem keepsFlags_awakeEffect (i : Instr) (s : State) : KeepsFlags s (awakeEffect i s) := by
  cases i with
  | crcInit | crcByte | crcVerify | frmStart => exact keepsFlags_of_eq rfl rfl rfl rfl rfl rfl
  | fenc => exact keepsFlags_encodeReading s
  | frmByte b => exact ((KeepsFlags.refl s).feedCrc b).appendAll _
  | frmFixed => exact (((keepsFlags_encodeReading s).feedCrc _).feedCrc _).appendAll _
  | frmRaw | frmDec2 | frmDec => exact (KeepsFlags.refl s).appendAll _
  | frmCrc =>
    simp only [awakeEffect]
    split
    · exact .refl s
    · exact (KeepsFlags.refl s).appendAll _
  | slpInit => exact keepsFlags_slpInit s
  | slpSleep c =>
    cases hi : s.init with
    | true => rw [awakeEffect_slpSleep_init c hi]; exact keepsFlags_acceptSleep c s
    | false => rw [awakeEffect_slpSleep_notInit c hi]; exact keepsFlags_recorded ErrCode.noConfusion s

theorem writeCmd_keepsFlags {w : Word} {s t : State} (h : writeCmd w s = .next t) : KeepsFlags s t := by
  cases hd : decode w with
  | error e =>
    rw [writeCmd_illegal hd] at h
    cases h
    exact keepsFlags_recorded ErrCode.noConfusion s
  | ok i =>
    rw [writeCmd_legal hd] at h
    rcases exec_cases h with ⟨_, rfl⟩ | ⟨_, rfl⟩
    · exact keepsFlags_awakeEffect i s
    · exact keepsFlags_recorded ErrCode.noConfusion s

/-! ### Accesses -/

/-- A write that answers changes nothing, or it is the 32-bit write to the offset of a register (R55, R56). -/
theorem busAccess_write_reaches {addr width : Nat} {w : Word} {s t : State} (h : busAccess (.write addr width w) s = .next t) :
    t = s ∨ ∃ r : Reg, Access.write addr width w = .write (s.base + r.offset) 4 w ∧ regWrite r.offset w s = .next t := by
  by_cases hin : s.inWindow addr = true
  · by_cases hacc : accepts (addr - s.base) width = true
    · obtain ⟨hlo, hhi⟩ := (s.inWindow_iff addr).1 hin
      obtain ⟨off, rfl⟩ := Nat.exists_eq_add_of_le hlo
      rw [Nat.add_sub_cancel_left] at hacc
      rw [busAccess_write s w (Nat.lt_of_add_lt_add_left hhi) hacc] at h
      by_cases hreg : off < 256
      · obtain ⟨rfl, _⟩ := (accepts_register_iff width hreg).1 hacc
        rw [windowWrite_register w s hreg] at h
        cases hr : regAt off with
        | none => rw [regWrite, hr] at h; cases h; exact .inl rfl
        | some r => rw [regAt_some hr] at h ⊢; exact .inr ⟨r, rfl, h⟩
      · rw [windowWrite, Config.frameOffset, if_neg hreg] at h
        cases h
        exact .inl rfl
    · rw [busAccess_rejected (.inr rfl) hin hacc] at h
      cases h
  · rw [busAccess_outside (.inr rfl) hin] at h
    cases h
    exact .inl rfl

/-- Of all accesses only a write to `STATUS` clears flags (R26). -/
theorem busAccess_flags {a : Access} {s t : State} (h : busAccess a s = .next t) :
    KeepsFlags s t ∨ ∃ w, a = .write (s.base + Reg.status.offset) 4 w ∧ t = writeStatus w s := by
  cases a with
  | read addr width =>
    obtain ⟨d, v, ht, _⟩ := windowSideEffects.1 s t addr width h
    subst ht
    exact .inl (keepsFlags_of_eq rfl rfl rfl rfl rfl rfl)
  | write addr width w =>
    rcases busAccess_write_reaches h with rfl | ⟨r, ha, hw⟩
    · exact .inl (.refl t)
    cases r with
    | cmd => exact .inl (writeCmd_keepsFlags hw)
    | status => cases hw; exact .inr ⟨w, ha, rfl⟩
    | opnd | crc | frmLen | fencRes | ticks | cycles | cfg | out =>
      cases hw
      exact .inl (keepsFlags_of_eq rfl rfl rfl rfl rfl rfl)

/-! ### Moves and steps -/

theorem keepsFlags_tick (s : State) : KeepsFlags s (tick s) :=
  keepsFlags_of_eq (tick_init s) (tick_cmdErr s) (tick_errCode s) (tick_frmOvf s) (tick_fencRng s) (tick_rstN s)

theorem keepsFlags_blockStep (s : State) : KeepsFlags s (blockStep s) :=
  keepsFlags_of_eq (blockStep_init s) (blockStep_cmdErr s) (blockStep_errCode s) (blockStep_frmOvf s) (blockStep_fencRng s)
    (blockStep_rstN s)

/-- What a step can do to the flags. -/
inductive FlagsStep (s t : State) : Prop where
  /-- No event is left (R146). -/
  | waits (ht : t = s)
  /-- An agent moves and clears nothing. -/
  | keeps (hr : s.rstN = true) (hk : KeepsFlags s t)
  /-- An access writes `w` to `STATUS` (R26). -/
  | clears (w : Word) (ops : List Access) (hr : s.rstN = true)
      (ha : nextAccess s = some (.write (s.base + Reg.status.offset) 4 w))
      (ht : t = writeStatus w { s with sched := s.sched.tail, hostOps := ops })
  /-- The block is reset, or held in reset (R157). -/
  | resets (u : State) (hc : s.rstN = false ∨ s.sched.head? = some (.rstN false)) (ht : t = resetBlock u)

theorem busAccess_flagsStep {s t : State} {a : Access} {ops : List Access} (hr : s.rstN = true) (ha : nextAccess s = some a)
    (h : busAccess a { s with sched := s.sched.tail, hostOps := ops } = .next t) : FlagsStep s t := by
  rcases busAccess_flags h with hk | ⟨w, rfl, ht⟩
  · exact .keeps hr hk.of_taken
  · exact .clears w ops hr ha ht

/-- The move of the first scheduled agent. -/
theorem agentMove_flagsStep {s t : State} {e : Event} {rest : List Event} (hs : s.sched = e :: rest) (hr : s.rstN = true)
    (h : agentMove e { s with sched := rest } = .next t) : FlagsStep s t := by
  obtain rfl : s.sched.tail = rest := by rw [hs, List.tail_cons]
  cases e with
  | host =>
    rcases hostMove_cases h with ⟨rfl, _⟩ | ⟨hawake, a, ops, ho, hacc⟩
    · exact .keeps hr (keepsFlags_of_eq rfl rfl rfl rfl rfl rfl)
    · have hnext : nextAccess s = some a := by
        rw [nextAccess_cons hs]
        exact (if_pos hawake).trans (congrArg List.head? ho)
      exact busAccess_flagsStep hr hnext hacc
  | second a => exact busAccess_flagsStep hr (nextAccess_cons hs) h
  | tick => cases h; exact .keeps hr (keepsFlags_tick _).of_taken
  | block => cases h; exact .keeps hr (keepsFlags_blockStep _).of_taken
  | vlow level => cases h; exact .keeps hr (keepsFlags_of_eq rfl rfl rfl rfl rfl rfl)
  | rstN level =>
    cases h
    cases level with
    | true =>
      rw [driveReset_high (s := { s with sched := s.sched.tail }) hr]
      exact .keeps hr (keepsFlags_of_eq rfl rfl rfl rfl rfl rfl)
    | false => exact .resets _ (.inr (by rw [hs, List.head?_cons])) rfl

theorem step_flagsStep {s t : State} (h : step s = .next t) : FlagsStep s t := by
  rcases step_cases h with ⟨_, _, rfl⟩ | ⟨e, rest, u, hs, hm, rfl⟩
  · exact .waits rfl
  · split
    · next hr => exact agentMove_flagsStep hs hr hm
    · next hr => exact .resets u (.inl (Bool.eq_false_of_not_eq_true hr)) rfl

/-! ### The invariants -/

theorem errorInv_writeStatus (w : Word) {s : State} (h : ErrorInv s) : ErrorInv (writeStatus w s) := by
  rw [writeStatus_eq]
  cases hw : w[3] with
  | true => exact iff_of_true rfl rfl
  | false => exact h

theorem FlagsStep.errorInv {s t : State} (h : FlagsStep s t) (hs : ErrorInv s) : ErrorInv t := by
  cases h with
  | waits ht => rwa [ht]
  | keeps _ hk => exact hk.record.errorInv hs
  | clears w ops _ _ ht => subst ht; exact errorInv_writeStatus w hs
  | resets u _ ht => subst ht; exact iff_of_true rfl rfl

/-- Outside reset no agent but the environment drives `rst_n` low, and that move resets the block (R157). -/
theorem FlagsStep.resetInv {s t : State} (h : FlagsStep s t) (hs : ResetInv s) : ResetInv t := by
  cases h with
  | waits ht => rwa [ht]
  | keeps hr hk => exact fun hn => by rw [hk.rstN, hr] at hn; cases hn
  | clears w ops hr _ ht => subst ht; exact fun hn => by rw [writeStatus_rstN, hr] at hn; cases hn
  | resets u _ ht => subst ht; exact fun _ => resetBlock_idem u

/-- Settles O58: `FlagsStep` has the error record and `rst_n`, and no step writes `BASE`. -/
theorem stepKeepsRecordInv : Obligations.StepKeepsRecordInv := by
  intro s t h
  obtain ⟨_, hbase, _⟩ := step_pending h
  exact ⟨(step_flagsStep h).errorInv, (step_flagsStep h).resetInv, fun hs => by rwa [BaseInv, hbase]⟩

/-! ### Stickiness -/

/-- A flag that every write with a 0 in bit `i` keeps is kept, or the bit is 1 in the word that the step writes. -/
theorem kept_or_written {s : State} {w : Word} {i : Nat} {P : Prop} (hi : i < 32)
    (ha : nextAccess s = some (.write (s.base + 0x008) 4 w)) (h : w[i] = false → P) :
    P ∨ ∃ w : Word, w[i] = true ∧ nextAccess s = some (.write (s.base + 0x008) 4 w) := by
  cases hw : w[i] with
  | true => exact .inr ⟨w, hw, ha⟩
  | false => exact .inl (h hw)

/-- Settles O50: of the ways in which a step can change a flag, only the write to `STATUS` clears one. -/
theorem stickyFlags : Obligations.StickyFlags := by
  intro s t hr h hn
  cases step_flagsStep h with
  | waits ht => subst ht; exact ⟨id, fun hset => .inl ⟨hset, rfl⟩, .inl, .inl⟩
  | keeps _ hk =>
    exact ⟨hk.init, fun hset => .inl (hk.record.of_set hset), fun hset => .inl (hk.frmOvf hset),
      fun hset => .inl (hk.fencRng hset)⟩
  | clears w ops _ ha ht =>
    rw [ht, writeStatus_eq]
    exact ⟨id, fun hset => kept_or_written (by decide) ha fun hw => by simp [hw, hset],
      fun hset => kept_or_written (by decide) ha fun hw => by simp [hw, hset],
      fun hset => kept_or_written (by decide) ha fun hw => by simp [hw, hset]⟩
  | resets u hc =>
    rcases hc with hlow | hdrive
    · rw [hr] at hlow; cases hlow
    · exact absurd hdrive hn

end Sys2Proof.Machine
end

section
/-! SUPPORT. O44: the held host has no step, and what a second master writes to `CMD` during a sleep is rejected (R140, R145). -/

namespace Sys2Proof.Machine

theorem hostMove_held {s : State} (hs : s.fsm ≠ .awake) : hostMove s = .next s := by
  simp [hostMove, State.hostHeld, (State.busy_iff s).2 hs]

/-- Settles O44: decoding comes before the check of `BUSY` (R147), so an illegal word records `ERR_ILLEGAL`; the second master
is the model's reading of R140 (notes/assumptions/12.md). -/
theorem hostIsHeld : Obligations.HostIsHeld := by
  intro s rest hr hs
  refine ⟨fun he => (step_cons he hr).trans (hostMove_held (s := { s with sched := rest }) hs), fun w he => ?_⟩
  rw [step_second_cmd hr he]
  cases hd : decode w with
  | error e => rw [writeCmd_illegal hd]; rfl
  | ok i => rw [writeCmd_legal hd, exec_busy i (s := { s with sched := rest }) hs]; rfl

end Sys2Proof.Machine
end

section
/-! SUPPORT. O28: each command that the frame discipline admits appends its payload bytes, and the running checksum stays the
CRC16 of the payload so far (R168). -/

namespace Sys2Proof.Machine

/-! ### Commands that touch neither the frame nor the CRC -/

/-- `MATCH` is not the frame's (R94). -/
theorem Builds.setMatched {s t : State} {bs : List Byte} {c : Half} (h : Builds s bs c t) (m : Bool) :
    Builds s bs c { t with matched := m } :=
  ⟨h.awake, h.base, h.txtMode, h.frmOvf, h.crc, h.frmLen, h.bytes⟩

/-- `SLP_INIT` writes its own unit and the error record only (R124). -/
theorem Builds.slpInit {s t : State} {bs : List Byte} {c : Half} (h : Builds s bs c t) : Builds s bs c (slpInit t) := by
  cases hi : t.init with
  | true => rw [slpInit_again hi]; exact ⟨h.awake, h.base, h.txtMode, h.frmOvf, h.crc, h.frmLen, h.bytes⟩
  | false => rw [slpInit_first hi]; exact ⟨h.awake, h.base, h.txtMode, h.frmOvf, h.crc, h.frmLen, h.bytes⟩

/-! ### Payload -/

/-- Payload that fits is appended and enters the checksum (R103). -/
theorem Builds.payload {s t : State} {bs : List Byte} (h : Builds s bs (crc16 bs) t) {cs : List Byte}
    (hfit : bs.length + cs.length ≤ 256) :
    Builds s (bs ++ cs) (crc16 (bs ++ cs)) (Machine.appendAll cs { t with crc := cs.foldl crc16Update t.crc }) := by
  rw [h.crc, crc16, crc16, ← List.foldl_append]
  exact (h.setCrc _).appendAll hfit

/-- One command of the discipline, `SLP_SLEEP` aside. -/
theorem Builds.disciplined {s t : State} {bs : List Byte} {i : Instr} (h : Builds s bs (crc16 bs) t)
    (hi : keepsFrameDiscipline i = true) (hsleep : ∀ c, i ≠ .slpSleep c) (hfit : bs.length + payloadBytes i ≤ 256) :
    ∃ cs, cs.length = payloadBytes i ∧ Builds s (bs ++ cs) (crc16 (bs ++ cs)) (awakeEffect i t) := by
  cases i with
  | frmByte b => exact ⟨[b], rfl, h.payload hfit⟩
  | frmFixed => exact ⟨[intByte t.opnd, fracByte t.opnd], rfl, (h.encodeReading t.opnd).payload hfit⟩
  | fenc => exact ⟨[], rfl, by rw [List.append_nil]; exact h.encodeReading t.opnd⟩
  | crcVerify c => exact ⟨[], rfl, by rw [List.append_nil]; exact h.setMatched _⟩
  | slpInit => exact ⟨[], rfl, by rw [List.append_nil]; exact h.slpInit⟩
  | slpSleep c => exact absurd rfl (hsleep c)
  | crcInit | crcByte | frmStart | frmCrc | frmRaw | frmDec2 | frmDec => cases hi

/-- The commands between `FRM_START` and `FRM_CRC`. -/
theorem execAll_disciplined {s t : State} {bs : List Byte} {body : List Instr} (h : Builds s bs (crc16 bs) t)
    (hbody : body.all keepsFrameDiscipline = true) (hsleep : ∀ c, Instr.slpSleep c ∉ body)
    (hfit : bs.length + (body.map payloadBytes).sum ≤ 256) :
    ∃ u cs, execAll body t = .next u ∧ cs.length = (body.map payloadBytes).sum
      ∧ Builds s (bs ++ cs) (crc16 (bs ++ cs)) u := by
  induction body generalizing bs t with
  | nil => exact ⟨t, [], rfl, rfl, by rwa [List.append_nil]⟩
  | cons i is ih =>
    rw [List.all_cons, Bool.and_eq_true] at hbody
    rw [List.map_cons, List.sum_cons] at hfit ⊢
    have hhead (c : Half) : i ≠ .slpSleep c := fun he => hsleep c (he ▸ List.mem_cons_self)
    obtain ⟨cs, hcs, hb⟩ := h.disciplined hbody.1 hhead (by omega)
    have hrest : (bs ++ cs).length + (is.map payloadBytes).sum ≤ 256 := by rw [List.length_append, hcs]; omega
    obtain ⟨u, ds, hu, hds, hbu⟩ := ih hb hbody.2 (fun c hm => hsleep c (List.mem_cons_of_mem i hm)) hrest
    refine ⟨u, cs ++ ds, (execAll_cons_awake i is h.awake).trans hu, ?_, ?_⟩
    · rw [List.length_append, hcs, hds]
    · rwa [← List.append_assoc]

/-- Settles O28: the body builds its payload with its CRC16 in `crc`, and `FRM_CRC` appends the two bytes of that CRC. -/
theorem checksumCoversFrame : Obligations.ChecksumCoversFrame := by
  intro s body hs hbin hbody hsleep hfit
  obtain ⟨t, payload, ht, hlen, hbt⟩ := execAll_disciplined (builds_frmStart hs) hbody hsleep (by rw [List.length_nil]; omega)
  rw [List.nil_append] at hbt
  have hbu := hbt.frmCrc hbin (by omega)
  refine ⟨_, payload, ?_, hlen, hbu.frmLen.trans List.length_append, hbu.frmOvf, ?_⟩
  · rw [execAll_cons_awake .frmStart _ hs, execAll_append body [.frmCrc] ht, execAll_cons_awake .frmCrc [] hbt.awake, execAll]
  · rw [hbu.frmLen]
    exact hbu.bytes

end Sys2Proof.Machine
end

section
/-! SUPPORT. O39 and O41: `rst_n` asserted, held and released (R157, R158). -/

namespace Sys2Proof.Machine

/-- Reset clears `frame_written[]`, so the kept contents have no readable value (R158). -/
theorem resetBlock_frameByte (s : State) (i : Nat) : (resetBlock s).frameByte i = none := by
  simp [State.frameByte, State.frameWrittenAt]

/-- A level that goes or stays low, or rises, resets the block (R157). -/
theorem driveReset_resets {level : Bool} {s : State} (h : level = false ∨ s.rstN = false) :
    driveReset level s = resetBlock { s with rstN := level } := by
  have hcond : (level && s.rstN) = false := Bool.and_eq_false_iff.2 h
  simp [driveReset, hcond]

/-- The hold of a low `rst_n` adds nothing to the move that drives it. -/
theorem step_rstN {s : State} {level : Bool} {rest : List Event} (hs : s.sched = .rstN level :: rest)
    (h : level = false ∨ s.rstN = false) : step s = .next (resetBlock { s with sched := rest, rstN := level }) := by
  have hdrive : driveReset level { s with sched := rest } = resetBlock { s with sched := rest, rstN := level } :=
    driveReset_resets h
  simp only [step, hs, takeEvent, agentMove, hdrive, holdInReset, resetBlock_idem, ite_self]

/-- Settles O39: the step is `resetBlock` of the level driven. What survives besides the inputs is the model's own
(notes/assumptions/7.md, 8.md, 10.md, 11.md and 13.md). -/
theorem resetInput : Obligations.ResetInput :=
  fun _ _ _ hs h => ⟨_, step_rstN hs h, rfl, resetBlock_frameByte _⟩

/-- Settles O41: the hold resets whatever the move left, and resetting twice is resetting once. That the access is answered is
the model's own (notes/assumptions/10.md). -/
theorem resetHoldsTheState : Obligations.ResetHoldsTheState := by
  intro s t hr hs h
  rcases step_cases h with ⟨hnil, _⟩ | ⟨e, rest, u, _, _, rfl⟩
  · exact absurd hnil hs
  · rw [hr]
    exact resetBlock_idem u

end Sys2Proof.Machine
end

section
/-! SUPPORT. O49: of the commands only an accepted `SLP_SLEEP` writes `ticks`, and of the other moves only a tick and reset
(R164). -/

namespace Sys2Proof.Machine

theorem awakeEffect_frameCommand_ticks {i : Instr} (hi : isFrameCommand i = true) (s : State) :
    (awakeEffect i s).ticks = s.ticks := by
  have hkept := congrArg State.ticks (restoreFrameUnit_awakeEffect hi s)
  exact hkept

/-- The normal path of the acceptance clears `ticks`; the forced path keeps it (R127). -/
theorem acceptSleep_ticks_ne {c : Half} {s : State} (h : (acceptSleep c s).ticks ≠ s.ticks) :
    (acceptSleep c s).ticks = 0 ∧ (acceptSleep c s).fsm = .armed := by
  by_cases hforced : s.cfgFailsafeEn = true ∧ s.vlow = true
  · rw [acceptSleep_forced c hforced.1 hforced.2] at h
    exact absurd rfl h
  · rw [acceptSleep_normal c (by simpa [imp_iff_not_or] using hforced)]
    exact ⟨rfl, rfl⟩

theorem awakeEffect_ticks_ne {i : Instr} {s : State} (h : (awakeEffect i s).ticks ≠ s.ticks) :
    (awakeEffect i s).ticks = 0 ∧ (awakeEffect i s).fsm = .armed := by
  cases i with
  | crcInit | crcByte | crcVerify => exact absurd rfl h
  | frmStart | frmByte | fenc | frmFixed | frmCrc | frmRaw | frmDec2 | frmDec =>
    exact (h (awakeEffect_frameCommand_ticks rfl s)).elim
  | slpInit => exact absurd (slpInit_ticks s) h
  | slpSleep c =>
    cases hi : s.init with
    | true => rw [awakeEffect_slpSleep_init c hi] at h ⊢; exact acceptSleep_ticks_ne h
    | false => rw [awakeEffect_slpSleep_notInit c hi] at h; exact absurd rfl h

/-- An access that changes `ticks` moves `fsm` with it, so it is the accepted `SLP_SLEEP`. -/
theorem busAccess_ticks_ne {a : Access} {s t : State} (h : busAccess a s = .next t) (hne : t.ticks ≠ s.ticks) :
    t.ticks = 0 ∧ s.fsm = .awake ∧ s.init = true ∧ t.fsm = .armed ∧ ∃ c, a = cmdAccess s.base (.slpSleep c) := by
  rcases busAccess_cases h with rfl | ⟨d, w, rfl⟩ | ⟨i, hi⟩ | rfl | ⟨w, rfl⟩ | ⟨w, rfl⟩ | ⟨w, rfl⟩
  case inr.inr.inl =>
    rcases exec_cases hi with ⟨ha, rfl⟩ | ⟨_, rfl⟩
    · obtain ⟨hzero, harmed⟩ := awakeEffect_ticks_ne hne
      obtain ⟨_, hinit, hacc⟩ := busAccess_fsm_ne h (by rw [harmed, ha]; exact Fsm.noConfusion)
      exact ⟨hzero, ha, hinit, harmed, hacc⟩
    · exact absurd rfl hne
  all_goals exact absurd rfl hne

theorem tick_enabled_ticks {s : State} (he : s.tickEnabled = true) : (tick s).ticks = s.ticks + 1 := by
  by_cases hf : s.fsm = .sleeping
  · rw [tick_sleeping he hf]; rfl
  · rw [tick_not_sleeping he hf]

/-- Every way in which a move can change `ticks` (R164). -/
theorem agentMove_ticks_ne {e : Event} {s t : State} (hr : s.rstN = true) (h : agentMove e s = .next t)
    (hne : t.ticks ≠ s.ticks) :
    (e = .tick ∧ s.init = true ∧ s.irqDis = false ∧ t.ticks = s.ticks + 1)
      ∨ (t.ticks = 0 ∧ s.fsm = .awake ∧ s.init = true ∧ t.fsm = .armed
          ∧ ∃ c, nextAccess { s with sched := [e] } = some (cmdAccess s.base (.slpSleep c)))
      ∨ (t.ticks = 0 ∧ e = .rstN false) := by
  cases e with
  | host =>
    rcases hostMove_cases h with ⟨rfl, _⟩ | ⟨ha, a, ops, ho, hacc⟩
    · exact absurd rfl hne
    · obtain ⟨hzero, _, hi, harmed, c, rfl⟩ := busAccess_ticks_ne hacc hne
      exact .inr (.inl ⟨hzero, ha, hi, harmed, c, by simp [nextAccess, ha, ho]⟩)
  | second a =>
    obtain ⟨hzero, ha, hi, harmed, c, rfl⟩ := busAccess_ticks_ne h hne
    exact .inr (.inl ⟨hzero, ha, hi, harmed, c, rfl⟩)
  | tick =>
    cases h
    cases he : s.tickEnabled with
    | true =>
      obtain ⟨hi, hq⟩ := s.tickEnabled_iff.1 he
      exact .inl ⟨rfl, hi, hq, tick_enabled_ticks he⟩
    | false => rw [tick_disabled he] at hne; exact absurd rfl hne
  | block => cases h; exact absurd (blockStep_ticks s) hne
  | vlow level => cases h; exact absurd rfl hne
  | rstN level =>
    cases h
    cases level with
    | false => exact .inr (.inr ⟨rfl, rfl⟩)
    | true => rw [driveReset_high hr] at hne; exact absurd rfl hne

/-- Settles O49: a step without reset held is the move of the scheduled agent. -/
theorem ticksHaveOneWriter : Obligations.TicksHaveOneWriter := by
  intro s t hr h hne
  rcases step_cases h with ⟨_, _, rfl⟩ | ⟨e, rest, u, hs, hm, rfl⟩
  · exact absurd rfl hne
  · rw [if_pos hr] at hne ⊢
    rw [nextAccess_cons hs, hs, List.head?_cons]
    simpa only [Option.some.injEq] using agentMove_ticks_ne (s := { s with sched := rest }) hr hm hne

end Sys2Proof.Machine
end
